-- ==== Sys2Proof/Word.lean ====
section
/-! DEFINITION. The word, byte and text types of the block (00_scope.md R5, R6; 10_state.md R19). -/

namespace Sys2Proof

/-- One input byte of the host's stream (20_memory.md R20). -/
abbrev Byte := BitVec 8

/-- A 32-bit quantity: an instruction word or an address (00_scope.md R5, `WORD_BITS` and `ADDR_BITS`).
Bit 0 is the least significant bit (R6). -/
abbrev Word := BitVec 32

/-- A string of characters, first character first: what the block prints (10_state.md R19, "a model may carry
`line` as a list of characters"). -/
abbrev Text := List Char

/-- The four consecutive input bytes of one word, in stream order (20_memory.md R20).  The block only ever receives
whole words (60_exceptions.md R142), so the host's queue holds whole chunks. -/
structure Chunk where
  b0 : Byte
  b1 : Byte
  b2 : Byte
  b3 : Byte
  deriving DecidableEq, Repr

end Sys2Proof
end

