-- ==== Sys2Proof/Config.lean ====
section
/-! DEFINITION. The build parameters of the block (00_scope.md R5).  The two strings are OPEN in the spec: they are
constants without a body here, so nothing can be proved about their characters except that they are ASCII. -/

namespace Sys2Proof

/-- The two string parameters of 00_scope.md R5 as one record of 7-bit character codes ("any ASCII string",
92_eei_decisions.md D6 and D7).  The text functions take it as an argument, as R5 allows. -/
structure Params where
  placeholderCodes : List (Fin 128)
  markerCodes : List (Fin 128)
  deriving DecidableEq, Repr

/-- The characters of a string of 7-bit codes. -/
def asciiText (codes : List (Fin 128)) : Text := codes.map fun k => Char.ofNat k.val

/-- `SDT_IMM_PLACEHOLDER` as text. -/
def Params.placeholder (p : Params) : Text := asciiText p.placeholderCodes

/-- `RAW_WORD_MARKER` as text. -/
def Params.marker (p : Params) : Text := asciiText p.markerCodes

/-- `SDT_IMM_PLACEHOLDER`, OPEN (R5, 92_eei_decisions.md D6): a free value, log entry 1. -/
opaque Config.sdtImmPlaceholder : List (Fin 128)

/-- `RAW_WORD_MARKER`, OPEN (R5, 92_eei_decisions.md D7): a free value, log entry 1. -/
opaque Config.rawWordMarker : List (Fin 128)

/-- The parameters the machine is built with. -/
def Config.params : Params := ⟨Config.sdtImmPlaceholder, Config.rawWordMarker⟩

/-- The default strings `,?` and `.word ` that the spec's test vectors use (R5).  Only the tests and the statements
that say "with the default parameters" use them; the machine does not. -/
def Config.vectorParams : Params := ⟨[44, 63], [46, 119, 111, 114, 100, 32]⟩

end Sys2Proof
end

