-- ==== Sys2Proof/Syntax.lean ====
section
/-! DEFINITION. The instruction words as syntax: one constructor per row of spec/opcode_table.json, holding every bit
of the word that the row does not fix, the ignored bits among them (30_encoding.md R30 to R38, R42, R43). -/

namespace Sys2Proof

/-- The sixteen values of the condition field `word[31:28]` (10_state.md R14); `al` is index 14, `nv` is index 15. -/
inductive Cond where
  | eq | ne | cs | cc | mi | pl | vs | vc | hi | ls | ge | lt | gt | le | al | nv
  deriving DecidableEq, Repr

/-- A register designator, the 4-bit number 0 to 15 (10_state.md R11).  There is no register behind it. -/
abbrev Reg := BitVec 4

/-- The four shift names, indexed by `word[6:5]` (10_state.md R16). -/
inductive Shift where
  | lsl | lsr | asr | ror
  deriving DecidableEq, Repr

/-- The four block-transfer modes, indexed by `word[24:23]` (10_state.md R17). -/
inductive Mode where
  | da | ia | db | ib
  deriving DecidableEq, Repr

/-- The sixteen data-processing opcodes `word[24:21]`, in index order (10_state.md R15). -/
inductive DpOp where
  | and | eor | sub | rsb | add | adc | sbc | rsc | tst | teq | cmp | cmn | orr | mov | bic | mvn
  deriving DecidableEq, Repr

/-- The seven families (40_classifier.md R50).  The numeric codes of R50 are not used, as R50 advises. -/
inductive Family where
  | branch | multiply | swi | dataProcessing | singleTransfer | blockTransfer | unknown
  deriving DecidableEq, Repr

/-- Sub-format SR, the low 12 bits of a register-form word (30_encoding.md R35): `amt` = `[11:8]`, `b7` = `[7]`,
`sh` = `[6:5]`, `byReg` = `[4]` (the field `R`), `rm` = `[3:0]`. -/
structure ShiftedReg where
  amt : BitVec 4
  b7 : Bool
  sh : Shift
  byReg : Bool
  rm : Reg
  deriving DecidableEq, Repr

/-- The immediate second operand of format DI (30_encoding.md R34): `rot` = `[11:8]`, `imm8` = `[7:0]`. -/
structure RotImm where
  rot : BitVec 4
  imm8 : BitVec 8
  deriving DecidableEq, Repr

/-- The four option bits of a single data transfer (30_encoding.md R36): `P` = `[24]`, `U` = `[23]`, `B` = `[22]`,
`W` = `[21]`.  `P`, `U` and `W` are read and never rendered (47_single_data_transfer.md R119). -/
structure TransferBits where
  P : Bool
  U : Bool
  B : Bool
  W : Bool
  deriving DecidableEq, Repr

/-- The instructions.  Argument order is the order of the fields in the word, most significant first. -/
inductive Instr where
  /-- `b`, format B, R71 -/
  | b (c : Cond) (off24 : BitVec 24)
  /-- `bl`, format B, R72 -/
  | bl (c : Cond) (off24 : BitVec 24)
  /-- `mul`, format M, R76; `rn` is an ignored field -/
  | mul (c : Cond) (sf : Bool) (rd rn rs rm : Reg)
  /-- `mla`, format M, R77 -/
  | mla (c : Cond) (sf : Bool) (rd rn rs rm : Reg)
  /-- `swi`, format W, R80 -/
  | swi (c : Cond) (comment24 : BitVec 24)
  /-- `and`, format DR, R90 -/
  | andR (c : Cond) (sf : Bool) (rn rd : Reg) (o : ShiftedReg)
  /-- `eor`, format DR, R91 -/
  | eorR (c : Cond) (sf : Bool) (rn rd : Reg) (o : ShiftedReg)
  /-- `sub`, format DR, R92 -/
  | subR (c : Cond) (sf : Bool) (rn rd : Reg) (o : ShiftedReg)
  /-- `rsb`, format DR, R93 -/
  | rsbR (c : Cond) (sf : Bool) (rn rd : Reg) (o : ShiftedReg)
  /-- `add`, format DR, R94 -/
  | addR (c : Cond) (sf : Bool) (rn rd : Reg) (o : ShiftedReg)
  /-- `adc`, format DR, R95 -/
  | adcR (c : Cond) (sf : Bool) (rn rd : Reg) (o : ShiftedReg)
  /-- `sbc`, format DR, R96 -/
  | sbcR (c : Cond) (sf : Bool) (rn rd : Reg) (o : ShiftedReg)
  /-- `rsc`, format DR, R97 -/
  | rscR (c : Cond) (sf : Bool) (rn rd : Reg) (o : ShiftedReg)
  /-- `tst`, format DR, R100 -/
  | tstR (c : Cond) (sf : Bool) (rn rd : Reg) (o : ShiftedReg)
  /-- `teq`, format DR, R101 -/
  | teqR (c : Cond) (sf : Bool) (rn rd : Reg) (o : ShiftedReg)
  /-- `cmp`, format DR, R102 -/
  | cmpR (c : Cond) (sf : Bool) (rn rd : Reg) (o : ShiftedReg)
  /-- `cmn`, format DR, R103 -/
  | cmnR (c : Cond) (sf : Bool) (rn rd : Reg) (o : ShiftedReg)
  /-- `orr`, format DR, R98 -/
  | orrR (c : Cond) (sf : Bool) (rn rd : Reg) (o : ShiftedReg)
  /-- `mov`, format DR, R104 -/
  | movR (c : Cond) (sf : Bool) (rn rd : Reg) (o : ShiftedReg)
  /-- `bic`, format DR, R99 -/
  | bicR (c : Cond) (sf : Bool) (rn rd : Reg) (o : ShiftedReg)
  /-- `mvn`, format DR, R105 -/
  | mvnR (c : Cond) (sf : Bool) (rn rd : Reg) (o : ShiftedReg)
  /-- `and`, format DI, R90 -/
  | andI (c : Cond) (sf : Bool) (rn rd : Reg) (o : RotImm)
  /-- `eor`, format DI, R91 -/
  | eorI (c : Cond) (sf : Bool) (rn rd : Reg) (o : RotImm)
  /-- `sub`, format DI, R92 -/
  | subI (c : Cond) (sf : Bool) (rn rd : Reg) (o : RotImm)
  /-- `rsb`, format DI, R93 -/
  | rsbI (c : Cond) (sf : Bool) (rn rd : Reg) (o : RotImm)
  /-- `add`, format DI, R94 -/
  | addI (c : Cond) (sf : Bool) (rn rd : Reg) (o : RotImm)
  /-- `adc`, format DI, R95 -/
  | adcI (c : Cond) (sf : Bool) (rn rd : Reg) (o : RotImm)
  /-- `sbc`, format DI, R96 -/
  | sbcI (c : Cond) (sf : Bool) (rn rd : Reg) (o : RotImm)
  /-- `rsc`, format DI, R97 -/
  | rscI (c : Cond) (sf : Bool) (rn rd : Reg) (o : RotImm)
  /-- `tst`, format DI, R100 -/
  | tstI (c : Cond) (sf : Bool) (rn rd : Reg) (o : RotImm)
  /-- `teq`, format DI, R101 -/
  | teqI (c : Cond) (sf : Bool) (rn rd : Reg) (o : RotImm)
  /-- `cmp`, format DI, R102 -/
  | cmpI (c : Cond) (sf : Bool) (rn rd : Reg) (o : RotImm)
  /-- `cmn`, format DI, R103 -/
  | cmnI (c : Cond) (sf : Bool) (rn rd : Reg) (o : RotImm)
  /-- `orr`, format DI, R98 -/
  | orrI (c : Cond) (sf : Bool) (rn rd : Reg) (o : RotImm)
  /-- `mov`, format DI, R104 -/
  | movI (c : Cond) (sf : Bool) (rn rd : Reg) (o : RotImm)
  /-- `bic`, format DI, R99 -/
  | bicI (c : Cond) (sf : Bool) (rn rd : Reg) (o : RotImm)
  /-- `mvn`, format DI, R105 -/
  | mvnI (c : Cond) (sf : Bool) (rn rd : Reg) (o : RotImm)
  /-- `str`, format TI, R117, R118 -/
  | strI (c : Cond) (t : TransferBits) (rn rd : Reg) (imm12 : BitVec 12)
  /-- `ldr`, format TI, R116, R118 -/
  | ldrI (c : Cond) (t : TransferBits) (rn rd : Reg) (imm12 : BitVec 12)
  /-- `str`, format TR, R117 -/
  | strR (c : Cond) (t : TransferBits) (rn rd : Reg) (o : ShiftedReg)
  /-- `ldr`, format TR, R116 -/
  | ldrR (c : Cond) (t : TransferBits) (rn rd : Reg) (o : ShiftedReg)
  /-- `stm` mode `da`, format K, R124 -/
  | stmda (c : Cond) (sf wb : Bool) (rn : Reg) (list : BitVec 16)
  /-- `stm` mode `ia`, format K, R124 -/
  | stmia (c : Cond) (sf wb : Bool) (rn : Reg) (list : BitVec 16)
  /-- `stm` mode `db`, format K, R124 -/
  | stmdb (c : Cond) (sf wb : Bool) (rn : Reg) (list : BitVec 16)
  /-- `stm` mode `ib`, format K, R124 -/
  | stmib (c : Cond) (sf wb : Bool) (rn : Reg) (list : BitVec 16)
  /-- `ldm` mode `da`, format K, R123 -/
  | ldmda (c : Cond) (sf wb : Bool) (rn : Reg) (list : BitVec 16)
  /-- `ldm` mode `ia`, format K, R123 -/
  | ldmia (c : Cond) (sf wb : Bool) (rn : Reg) (list : BitVec 16)
  /-- `ldm` mode `db`, format K, R123 -/
  | ldmdb (c : Cond) (sf wb : Bool) (rn : Reg) (list : BitVec 16)
  /-- `ldm` mode `ib`, format K, R123 -/
  | ldmib (c : Cond) (sf wb : Bool) (rn : Reg) (list : BitVec 16)
  /-- raw word with `high3 = 110`, format X case 1, R131; the whole word is the one field (R38) -/
  | rawHigh6 (w : Word)
  /-- raw word with `high3 = 111` and bit 24 clear, format X case 2, R131 -/
  | rawHigh7 (w : Word)
  deriving DecidableEq, Repr

end Sys2Proof
end

