-- ==== Sys2Proof/Machine/State.lean ====
section
/-! DEFINITION. What the machine holds.  ENHDEC itself holds nothing between evaluations (10_state.md R10 to R13, R18):
the fields are the block's ports (R19) and the host contract around it (20_memory.md R20 to R23). -/

namespace Sys2Proof.Machine

/-! ## The `fields` output (40_classifier.md R57)

What the renderer extracts from the word: a function of the family and the word (49_fallback_and_line.md R136, R137).
The one value that R57 lists and that reads `addr`, the branch target, is the wire `State.target` beside the record (log
entry 7). -/

structure BranchFields where
  cond : Cond
  L : Bool
  off24 : BitVec 24
  deriving DecidableEq, Repr

structure MultiplyFields where
  cond : Cond
  A : Bool
  S : Bool
  Rd : Reg
  Rm : Reg
  Rs : Reg
  Rn : Reg
  deriving DecidableEq, Repr

structure SwiFields where
  cond : Cond
  comment24 : BitVec 24
  deriving DecidableEq, Repr

/-- The second operand of a data-processing word: `rot`, `imm8`, `imm32`, or the five fields of sub-format SR. -/
inductive Operand2 where
  | imm (rot : BitVec 4) (imm8 : BitVec 8) (imm32 : Word)
  | reg (o : ShiftedReg)
  deriving DecidableEq, Repr

structure DataProcessingFields where
  cond : Cond
  I : Bool
  opc : DpOp
  S : Bool
  Rn : Reg
  Rd : Reg
  op2 : Operand2
  deriving DecidableEq, Repr

/-- The offset of a single data transfer: the raw 12 bits, or the five fields of sub-format SR. -/
inductive Offset where
  | imm12 (v : BitVec 12)
  | reg (o : ShiftedReg)
  deriving DecidableEq, Repr

structure SingleTransferFields where
  cond : Cond
  I : Bool
  P : Bool
  U : Bool
  B : Bool
  W : Bool
  L : Bool
  Rn : Reg
  Rd : Reg
  offset : Offset
  deriving DecidableEq, Repr

structure BlockTransferFields where
  cond : Cond
  PU : Mode
  S : Bool
  W : Bool
  L : Bool
  Rn : Reg
  list : BitVec 16
  deriving DecidableEq, Repr

/-- The bundle of extracted fields of the selected family. -/
inductive Fields where
  | branch (f : BranchFields)
  | multiply (f : MultiplyFields)
  | swi (f : SwiFields)
  | dataProcessing (f : DataProcessingFields)
  | singleTransfer (f : SingleTransferFields)
  | blockTransfer (f : BlockTransferFields)
  | unknown (word : Word)
  deriving DecidableEq, Repr

/-- The three groups of outputs of one evaluation (R19): `family`; `fields` with `target`; `line`. -/
structure Outputs where
  family : Family
  fields : Fields
  target : Option Word
  line : Text
  deriving DecidableEq, Repr

/-! ## The state -/

/-- The machine: the block's ports and the host's side of the contract. -/
structure State where
  /-- host: `BASE_ADDR` (R22), a parameter of the host -/
  baseAddr : Word
  /-- host: the number `i` of the next word of the stream, counted from 0 (R21) -/
  presented : Nat
  /-- host: the input bytes not yet presented, four at a time (R20) -/
  stream : List Chunk
  /-- host: the lines received so far, first line first (R23) -/
  lines : List Text
  /-- input port `addr[31:0]` (R12, R19) -/
  addr : Word
  /-- input port `word[31:0]` (R19) -/
  word : Word
  /-- output port `family` (R50) -/
  family : Family
  /-- output port `fields` (R57, R137) -/
  fields : Fields
  /-- output port `fields`, its computed part: the branch target that R57 lists for family Branch (R70).  `none` is every
  other family, which has no computed target.  Log entry 7. -/
  target : Option Word
  /-- output port `line` (R134) -/
  line : Text
  deriving DecidableEq, Repr

/-- The output ports together. -/
def State.outputs (s : State) : Outputs := ⟨s.family, s.fields, s.target, s.line⟩

/-- No constructor: the set of exceptions is empty (60_exceptions.md R140), and nothing in the model stops a step. -/
inductive Fault where
  deriving DecidableEq, Repr

/-- Why an instruction has no meaning. -/
inductive Refusal where
  /-- Raised by an arm of `exec` whose instruction has no meaning yet; no arm raises it.  Safe. -/
  | notModelled (mnemonic : String)
  deriving DecidableEq, Repr

/-- One step's outcome. -/
abbrev Result := Host.Outcome State Fault Refusal

/-- The machine after reset (70_reset_and_hazards.md R150).  The block has no reset value.  The host has presented
nothing and received nothing; `BASE_ADDR` is 0 in the reference behaviour (R22); the input ports are 0 (log entry 3),
and the outputs are the function of those inputs, as they are at all times (10_state.md section 8): the all-zero word is
`andeq r0,r0,r0` (40_classifier.md section 5). -/
def State.reset : State where
  baseAddr := 0
  presented := 0
  stream := []
  lines := []
  addr := 0
  word := 0
  family := .dataProcessing
  fields := .dataProcessing
    { cond := .eq, I := false, opc := .and, S := false, Rn := 0, Rd := 0, op2 := .reg ⟨0, false, .lsl, false, 0⟩ }
  target := none
  line := "00000000 : 00000000 : andeq r0,r0,r0".toList

end Sys2Proof.Machine
end

