-- ==== Sys2Proof/Machine/Text.lean ====
section
/-! DEFINITION. The four constant tables (10_state.md R14 to R17), the text primitives `cond`, `hex8`, `dec`, `reg`
(41_condition_and_text.md R60 to R64) and the assembly of the line (49_fallback_and_line.md R134). -/

namespace Sys2Proof.Machine

/-! ## The constant tables -/

/-- `COND`, indexed by `word[31:28]` (R14); index 14 is the empty string. -/
def COND : List Text :=
  ["eq", "ne", "cs", "cc", "mi", "pl", "vs", "vc", "hi", "ls", "ge", "lt", "gt", "le", "", "nv"].map String.toList

/-- `DPNAME`, indexed by `word[24:21]` (R15). -/
def DPNAME : List Text :=
  ["and", "eor", "sub", "rsb", "add", "adc", "sbc", "rsc", "tst", "teq", "cmp", "cmn", "orr", "mov", "bic", "mvn"].map
    String.toList

/-- `SHIFT`, indexed by `word[6:5]` (R16). -/
def SHIFT : List Text := ["lsl", "lsr", "asr", "ror"].map String.toList

/-- `MODE`, indexed by `word[24:23]` (R17). -/
def MODE : List Text := ["da", "ia", "db", "ib"].map String.toList

/-- Entry `i` of a constant table, entries numbered from 0 (00_scope.md R6). -/
def entry (table : List Text) (i : Nat) : Text := table.getD i []

/-! ## The same tables by name -/

/-- The condition suffix (R60). -/
def condText : Cond → Text
  | .eq => "eq".toList | .ne => "ne".toList | .cs => "cs".toList | .cc => "cc".toList
  | .mi => "mi".toList | .pl => "pl".toList | .vs => "vs".toList | .vc => "vc".toList
  | .hi => "hi".toList | .ls => "ls".toList | .ge => "ge".toList | .lt => "lt".toList
  | .gt => "gt".toList | .le => "le".toList | .al => [] | .nv => "nv".toList

def dpName : DpOp → Text
  | .and => "and".toList | .eor => "eor".toList | .sub => "sub".toList | .rsb => "rsb".toList
  | .add => "add".toList | .adc => "adc".toList | .sbc => "sbc".toList | .rsc => "rsc".toList
  | .tst => "tst".toList | .teq => "teq".toList | .cmp => "cmp".toList | .cmn => "cmn".toList
  | .orr => "orr".toList | .mov => "mov".toList | .bic => "bic".toList | .mvn => "mvn".toList

def shiftName : Shift → Text
  | .lsl => "lsl".toList | .lsr => "lsr".toList | .asr => "asr".toList | .ror => "ror".toList

def modeName : Mode → Text
  | .da => "da".toList | .ia => "ia".toList | .db => "db".toList | .ib => "ib".toList

/-! ## The text primitives -/

/-- The character of a digit 0 to 15: `0123456789abcdef` (R62, R63). -/
def digitChar (n : Nat) : Char := if n < 10 then Char.ofNat (48 + n) else Char.ofNat (87 + n)

/-- `hex8(v)`: the eight hexadecimal digits of `v`, bits 31:28 first (R62). -/
def hex8 (v : Word) : Text :=
  [28, 24, 20, 16, 12, 8, 4, 0].map fun lo => digitChar (v.extractLsb' lo 4).toNat

/-- The decimal digits of `n` in front of `acc`, with `fuel` digits at most. -/
def decDigits : Nat → Nat → Text → Text
  | 0, _, acc => acc
  | fuel + 1, n, acc =>
    let acc' := digitChar (n % 10) :: acc
    if n / 10 = 0 then acc' else decDigits fuel (n / 10) acc'

/-- `dec(v)`: the decimal numeral, no sign, no leading zero, `0` for zero (R63).  Ten digits hold any 32-bit value. -/
def dec (v : Word) : Text := decDigits 10 v.toNat []

/-- `reg(n)`: `r` and the decimal number (R64); no alias names (R11). -/
def reg (n : Reg) : Text := 'r' :: dec (n.zeroExtend 32)

/-- The line: address, word and text between the two separators (R134). -/
def assembleLine (addr word : Word) (text : Text) : Text :=
  hex8 addr ++ " : ".toList ++ hex8 word ++ " : ".toList ++ text

end Sys2Proof.Machine
end

