-- ==== Sys2Proof/Machine/Flags.lean ====
section
/-! DEFINITION. The flag LETTERS printed after the condition or around the operands (41_condition_and_text.md R61).
ENHDEC has no status flag: no rule reads or writes one (10_state.md R13), so there is no flag computation. -/

namespace Sys2Proof.Machine

/-- `s` when the set-flags bit is set (43_multiply.md R75, 45_data_processing.md R86). -/
def setFlagsLetter (sf : Bool) : Text := if sf then "s".toList else []

/-- `p` of a comparison: exactly when the destination field is 15; 0 to 14 print alike and give no warning (R106). -/
def comparisonLetter (rd : Reg) : Text := if rd = 15 then "p".toList else []

/-- `b` of a byte transfer (47_single_data_transfer.md R115). -/
def byteLetter (b : Bool) : Text := if b then "b".toList else []

/-- `!` directly after the base register when the writeback bit is set (48_block_data_transfer.md R127). -/
def writebackMark (w : Bool) : Text := if w then "!".toList else []

/-- `^` as the last character when the user-bank bit is set (R127). -/
def userBankMark (u : Bool) : Text := if u then "^".toList else []

end Sys2Proof.Machine
end

