-- ==== Sys2Proof/Machine/Operands.lean ====
section
/-! DEFINITION. The operand forms: the branch target (42_branch.md R70), the immediate and shifted-register second
operand (45_data_processing.md R87, R88; 46_shifted_operand.md R110), the transfer offset (47_single_data_transfer.md
R115, R118) and the register list (48_block_data_transfer.md R126). -/

namespace Sys2Proof.Machine

/-- The branch byte offset: the 24-bit field sign-extended, times 4, modulo 2^32 (30_encoding.md R39). -/
def byteOffset (off24 : BitVec 24) : Word := off24.signExtend 32 <<< 2

/-- The branch target `addr + 8 + byte_off`, modulo 2^32 (R70, 92_eei_decisions.md D2). -/
def branchTarget (addr : Word) (off24 : BitVec 24) : Word := addr + 8 + byteOffset off24

/-- The printed immediate: the byte rotated LEFT by twice the rotate field (30_encoding.md R40, 90_conflicts.md C4). -/
def imm32 (o : RotImm) : Word := (o.imm8.zeroExtend 32).rotateLeft (2 * o.rot.toNat)

/-- Bits 11 to 4 of sub-format SR are not all zero: bit 7 and bit 4 count (R111). -/
def shifted (o : ShiftedReg) : Bool := o.amt != 0 || o.b7 || o.sh != .lsl || o.byReg

/-- The shift amount: a register name, or the raw 4-bit value in decimal (R110, R112, R113). -/
def shiftAmount (o : ShiftedReg) : Text := if o.byReg then reg o.amt else dec (o.amt.zeroExtend 32)

/-- `shreg`: a comma, the register and, unless bits 11 to 4 are all zero, the shift (R110). -/
def shreg (o : ShiftedReg) : Text :=
  ",".toList ++ reg o.rm ++
    if shifted o then " ".toList ++ shiftName o.sh ++ " ".toList ++ shiftAmount o else []

/-- The immediate second operand with its assembled value. -/
def immOperand (o : RotImm) : Operand2 := .imm o.rot o.imm8 (imm32 o)

/-- The text of the second operand (R87, R88): no `#` before an immediate. -/
def operand2Text : Operand2 → Text
  | .imm _ _ v => ",".toList ++ dec v
  | .reg o => shreg o

/-- The text of a transfer offset: the shifted register, or the placeholder whatever the 12 bits are (R115, R118). -/
def offsetText (p : Params) : Offset → Text
  | .imm12 _ => p.placeholder
  | .reg o => shreg o

/-- The opening brace. -/
def lbrace : Char := Char.ofNat 0x7b

/-- The closing brace. -/
def rbrace : Char := Char.ofNat 0x7d

/-- The numbers of the registers in a list, ascending: those `i` with `list[i] = 1` (R41, R126). -/
def listed (list : BitVec 16) : List Nat := (List.range 16).filter list.getLsbD

/-- `reglist`: every register of the list by name, ascending, joined by commas, no ranges (R126). -/
def reglist (list : BitVec 16) : Text :=
  List.intercalate ",".toList ((listed list).map fun i => reg (BitVec.ofNat 4 i))

end Sys2Proof.Machine
end

