-- ==== Sys2Proof/WellFormed.lean ====
section
/-! DEFINITION. Which terms of `Instr` are instruction words of their row.  Every word of the input space is admitted
(00_scope.md R8), so these checks refuse no word: they refuse terms that stand for no word of their row. -/

namespace Sys2Proof

/-- `word[7:4] = 1001`: with `word[24:22] = 000` such a register-form word belongs to Multiply (40_classifier.md R51,
R53; 45_data_processing.md section 2). -/
def ShiftedReg.mulPattern (o : ShiftedReg) : Bool := o.b7 && o.sh == .lsl && o.byReg

/-- The term stands for a word of its row.  The register forms of `and` and `eor` may not carry the Multiply pattern
(R90, R91), and a raw word must lie in its part of format X (30_encoding.md R38). -/
def Instr.wf : Instr → Bool
  | .b _ _ => true
  | .bl _ _ => true
  | .mul _ _ _ _ _ _ => true
  | .mla _ _ _ _ _ _ => true
  | .swi _ _ => true
  | .andR _ _ _ _ o => !o.mulPattern
  | .eorR _ _ _ _ o => !o.mulPattern
  | .subR _ _ _ _ _ => true
  | .rsbR _ _ _ _ _ => true
  | .addR _ _ _ _ _ => true
  | .adcR _ _ _ _ _ => true
  | .sbcR _ _ _ _ _ => true
  | .rscR _ _ _ _ _ => true
  | .tstR _ _ _ _ _ => true
  | .teqR _ _ _ _ _ => true
  | .cmpR _ _ _ _ _ => true
  | .cmnR _ _ _ _ _ => true
  | .orrR _ _ _ _ _ => true
  | .movR _ _ _ _ _ => true
  | .bicR _ _ _ _ _ => true
  | .mvnR _ _ _ _ _ => true
  | .andI _ _ _ _ _ => true
  | .eorI _ _ _ _ _ => true
  | .subI _ _ _ _ _ => true
  | .rsbI _ _ _ _ _ => true
  | .addI _ _ _ _ _ => true
  | .adcI _ _ _ _ _ => true
  | .sbcI _ _ _ _ _ => true
  | .rscI _ _ _ _ _ => true
  | .tstI _ _ _ _ _ => true
  | .teqI _ _ _ _ _ => true
  | .cmpI _ _ _ _ _ => true
  | .cmnI _ _ _ _ _ => true
  | .orrI _ _ _ _ _ => true
  | .movI _ _ _ _ _ => true
  | .bicI _ _ _ _ _ => true
  | .mvnI _ _ _ _ _ => true
  | .strI _ _ _ _ _ => true
  | .ldrI _ _ _ _ _ => true
  | .strR _ _ _ _ _ => true
  | .ldrR _ _ _ _ _ => true
  | .stmda _ _ _ _ _ => true
  | .stmia _ _ _ _ _ => true
  | .stmdb _ _ _ _ _ => true
  | .stmib _ _ _ _ _ => true
  | .ldmda _ _ _ _ _ => true
  | .ldmia _ _ _ _ _ => true
  | .ldmdb _ _ _ _ _ => true
  | .ldmib _ _ _ _ _ => true
  | .rawHigh6 w => w &&& 0x0e000000 == 0x0c000000
  | .rawHigh7 w => w &&& 0x0f000000 == 0x0e000000

end Sys2Proof
end

