-- ==== Sys2Proof/Decode.lean ====
section
/-! DEFINITION. The classifier (40_classifier.md R51, R52), the decoder from words and bytes to `Instr`, and the
encoder written from the format tables of 30_encoding.md R31 to R38.  Decoding is total on words (R44): the only
rejection is a byte list too short to hold a word. -/

namespace Sys2Proof

/-! ## Index numbers of the constant tables (10_state.md R14 to R17) -/

/-- The condition whose table index is the 4-bit number (R14, 92_eei_decisions.md D11). -/
def Cond.ofBits (x : BitVec 4) : Cond :=
  match x.toNat with
  | 0 => .eq | 1 => .ne | 2 => .cs | 3 => .cc | 4 => .mi | 5 => .pl | 6 => .vs | 7 => .vc
  | 8 => .hi | 9 => .ls | 10 => .ge | 11 => .lt | 12 => .gt | 13 => .le | 14 => .al | _ => .nv

def Cond.toBits : Cond → BitVec 4
  | .eq => 0 | .ne => 1 | .cs => 2 | .cc => 3 | .mi => 4 | .pl => 5 | .vs => 6 | .vc => 7
  | .hi => 8 | .ls => 9 | .ge => 10 | .lt => 11 | .gt => 12 | .le => 13 | .al => 14 | .nv => 15

/-- The opcode whose index in `DPNAME` is the 4-bit number (R15). -/
def DpOp.ofBits (x : BitVec 4) : DpOp :=
  match x.toNat with
  | 0 => .and | 1 => .eor | 2 => .sub | 3 => .rsb | 4 => .add | 5 => .adc | 6 => .sbc | 7 => .rsc
  | 8 => .tst | 9 => .teq | 10 => .cmp | 11 => .cmn | 12 => .orr | 13 => .mov | 14 => .bic | _ => .mvn

def DpOp.toBits : DpOp → BitVec 4
  | .and => 0 | .eor => 1 | .sub => 2 | .rsb => 3 | .add => 4 | .adc => 5 | .sbc => 6 | .rsc => 7
  | .tst => 8 | .teq => 9 | .cmp => 10 | .cmn => 11 | .orr => 12 | .mov => 13 | .bic => 14 | .mvn => 15

/-- The shift whose index in `SHIFT` is the 2-bit number (R16). -/
def Shift.ofBits (x : BitVec 2) : Shift :=
  match x.toNat with
  | 0 => .lsl | 1 => .lsr | 2 => .asr | _ => .ror

def Shift.toBits : Shift → BitVec 2
  | .lsl => 0 | .lsr => 1 | .asr => 2 | .ror => 3

/-- The mode whose index in `MODE` is the 2-bit number, bit 24 the more significant (R17). -/
def Mode.ofBits (x : BitVec 2) : Mode :=
  match x.toNat with
  | 0 => .da | 1 => .ia | 2 => .db | _ => .ib

def Mode.toBits : Mode → BitVec 2
  | .da => 0 | .ia => 1 | .db => 2 | .ib => 3

/-! ## The classifier -/

/-- `high3 = word[27:25]`, the primary discriminator (R30). -/
def high3 (w : Word) : BitVec 3 := w.extractLsb' 25 3

def tBranch (w : Word) : Bool := high3 w == 0b101
def tMul (w : Word) : Bool := w &&& 0x0fc000f0 == 0x00000090
def tSwi (w : Word) : Bool := w &&& 0x0f000000 == 0x0f000000
def tDp (w : Word) : Bool := high3 w == 0b000 || high3 w == 0b001
def tSdt (w : Word) : Bool := high3 w == 0b010 || high3 w == 0b011
def tBdt (w : Word) : Bool := high3 w == 0b100

/-- The family of a word: the first raw test that holds, in the fixed order of R52. -/
def classify (w : Word) : Family :=
  if tBranch w then .branch
  else if tMul w then .multiply
  else if tSwi w then .swi
  else if tDp w then .dataProcessing
  else if tSdt w then .singleTransfer
  else if tBdt w then .blockTransfer
  else .unknown

/-! ## Words to instructions -/

/-- `cond = word[31:28]` (R30). -/
def condOf (w : Word) : Cond := Cond.ofBits (w.extractLsb' 28 4)

/-- Sub-format SR of the low 12 bits (R35). -/
def shiftedRegOf (w : Word) : ShiftedReg where
  amt := w.extractLsb' 8 4
  b7 := w.getLsbD 7
  sh := Shift.ofBits (w.extractLsb' 5 2)
  byReg := w.getLsbD 4
  rm := w.extractLsb' 0 4

/-- `rot` and `imm8` of format DI (R34). -/
def rotImmOf (w : Word) : RotImm where
  rot := w.extractLsb' 8 4
  imm8 := w.extractLsb' 0 8

/-- `P`, `U`, `B`, `W` of formats TI and TR (R36). -/
def transferBitsOf (w : Word) : TransferBits where
  P := w.getLsbD 24
  U := w.getLsbD 23
  B := w.getLsbD 22
  W := w.getLsbD 21

/-- Format B (R31): the link bit selects the row. -/
def decodeBranch (w : Word) : Instr :=
  if w.getLsbD 24 then .bl (condOf w) (w.extractLsb' 0 24) else .b (condOf w) (w.extractLsb' 0 24)

/-- Format M (R32): the accumulate bit selects the row. -/
def decodeMultiply (w : Word) : Instr :=
  if w.getLsbD 21 then
    .mla (condOf w) (w.getLsbD 20) (w.extractLsb' 16 4) (w.extractLsb' 12 4) (w.extractLsb' 8 4) (w.extractLsb' 0 4)
  else
    .mul (condOf w) (w.getLsbD 20) (w.extractLsb' 16 4) (w.extractLsb' 12 4) (w.extractLsb' 8 4) (w.extractLsb' 0 4)

/-- Format W (R33). -/
def decodeSwi (w : Word) : Instr := .swi (condOf w) (w.extractLsb' 0 24)

/-- The register-form row of an opcode (R34, R42). -/
def dpReg (op : DpOp) (c : Cond) (sf : Bool) (rn rd : Reg) (o : ShiftedReg) : Instr :=
  match op with
  | .and => .andR c sf rn rd o
  | .eor => .eorR c sf rn rd o
  | .sub => .subR c sf rn rd o
  | .rsb => .rsbR c sf rn rd o
  | .add => .addR c sf rn rd o
  | .adc => .adcR c sf rn rd o
  | .sbc => .sbcR c sf rn rd o
  | .rsc => .rscR c sf rn rd o
  | .tst => .tstR c sf rn rd o
  | .teq => .teqR c sf rn rd o
  | .cmp => .cmpR c sf rn rd o
  | .cmn => .cmnR c sf rn rd o
  | .orr => .orrR c sf rn rd o
  | .mov => .movR c sf rn rd o
  | .bic => .bicR c sf rn rd o
  | .mvn => .mvnR c sf rn rd o

/-- The immediate-form row of an opcode (R34, R42). -/
def dpImm (op : DpOp) (c : Cond) (sf : Bool) (rn rd : Reg) (o : RotImm) : Instr :=
  match op with
  | .and => .andI c sf rn rd o
  | .eor => .eorI c sf rn rd o
  | .sub => .subI c sf rn rd o
  | .rsb => .rsbI c sf rn rd o
  | .add => .addI c sf rn rd o
  | .adc => .adcI c sf rn rd o
  | .sbc => .sbcI c sf rn rd o
  | .rsc => .rscI c sf rn rd o
  | .tst => .tstI c sf rn rd o
  | .teq => .teqI c sf rn rd o
  | .cmp => .cmpI c sf rn rd o
  | .cmn => .cmnI c sf rn rd o
  | .orr => .orrI c sf rn rd o
  | .mov => .movI c sf rn rd o
  | .bic => .bicI c sf rn rd o
  | .mvn => .mvnI c sf rn rd o

/-- Formats DI and DR (R34): `word[25]` selects the form. -/
def decodeDp (w : Word) : Instr :=
  let op := DpOp.ofBits (w.extractLsb' 21 4)
  if w.getLsbD 25 then
    dpImm op (condOf w) (w.getLsbD 20) (w.extractLsb' 16 4) (w.extractLsb' 12 4) (rotImmOf w)
  else
    dpReg op (condOf w) (w.getLsbD 20) (w.extractLsb' 16 4) (w.extractLsb' 12 4) (shiftedRegOf w)

/-- Formats TI and TR (R36): `word[25]` selects the form, `word[20]` load or store. -/
def decodeSdt (w : Word) : Instr :=
  let c := condOf w
  let t := transferBitsOf w
  let rn := w.extractLsb' 16 4
  let rd := w.extractLsb' 12 4
  match w.getLsbD 25, w.getLsbD 20 with
  | false, false => .strI c t rn rd (w.extractLsb' 0 12)
  | false, true => .ldrI c t rn rd (w.extractLsb' 0 12)
  | true, false => .strR c t rn rd (shiftedRegOf w)
  | true, true => .ldrR c t rn rd (shiftedRegOf w)

/-- Format K (R37): `word[20]` selects load or store, `word[24:23]` the mode. -/
def decodeBdt (w : Word) : Instr :=
  let c := condOf w
  let sf := w.getLsbD 22
  let wb := w.getLsbD 21
  let rn := w.extractLsb' 16 4
  let list := w.extractLsb' 0 16
  match w.getLsbD 20, Mode.ofBits (w.extractLsb' 23 2) with
  | false, .da => .stmda c sf wb rn list
  | false, .ia => .stmia c sf wb rn list
  | false, .db => .stmdb c sf wb rn list
  | false, .ib => .stmib c sf wb rn list
  | true, .da => .ldmda c sf wb rn list
  | true, .ia => .ldmia c sf wb rn list
  | true, .db => .ldmdb c sf wb rn list
  | true, .ib => .ldmib c sf wb rn list

/-- Format X (R38): the whole word is the field; bit 25 tells the two cases apart. -/
def decodeRaw (w : Word) : Instr := if w.getLsbD 25 then .rawHigh7 w else .rawHigh6 w

/-- The instruction of a word.  The family is decided once, by the priority rules, and then the fields of that family's
format are extracted (R56: a renderer does not re-test the family pattern).  Total (R44, R53). -/
def decode (w : Word) : Instr :=
  match classify w with
  | .branch => decodeBranch w
  | .multiply => decodeMultiply w
  | .swi => decodeSwi w
  | .dataProcessing => decodeDp w
  | .singleTransfer => decodeSdt w
  | .blockTransfer => decodeBdt w
  | .unknown => decodeRaw w

/-! ## Bytes to words (20_memory.md R20) -/

/-- The word of four bytes in stream order, the most significant byte first (R20). -/
def assemble (k : Chunk) : Word := k.b0 ++ k.b1 ++ k.b2 ++ k.b3

/-- The four bytes of a word in stream order: the inverse of `assemble`. -/
def chunkOf (w : Word) : Chunk where
  b0 := w.extractLsb' 24 8
  b1 := w.extractLsb' 16 8
  b2 := w.extractLsb' 8 8
  b3 := w.extractLsb' 0 8

/-- Why a byte list is rejected. -/
inductive DecodeError where
  /-- Fewer than four bytes: no whole word (60_exceptions.md R142; the block only ever receives whole words).  Safe. -/
  | truncated
  deriving DecidableEq, Repr

/-- The instruction at the head of a byte list, and the bytes after it. -/
def decodeBytes : List Byte → Except DecodeError (Instr × List Byte)
  | b0 :: b1 :: b2 :: b3 :: rest => .ok (decode (assemble ⟨b0, b1, b2, b3⟩), rest)
  | _ => .error .truncated

/-- The bytes of a chunk in stream order. -/
def Chunk.bytes (k : Chunk) : List Byte := [k.b0, k.b1, k.b2, k.b3]

/-- The decoder on a row's word, its bits numbered as spec/opcode_table.json numbers them.  Every row has 32 bits, and
no instruction is longer than 32 bits (R30), so a longer word is refused. -/
def decodeTableWord (nbits w : Nat) : Option Instr :=
  if nbits ≤ 32 then
    match decodeBytes (chunkOf (BitVec.ofNat 32 w)).bytes with
    | .ok (i, _) => some i
    | .error _ => none
  else none

/-! ## Instructions to words -/

/-- Sub-format SR (R35). -/
def wordSR (o : ShiftedReg) : BitVec 12 :=
  o.amt ++ BitVec.ofBool o.b7 ++ o.sh.toBits ++ BitVec.ofBool o.byReg ++ o.rm

/-- Format B (R31). -/
def wordB (c : Cond) (l : Bool) (off24 : BitVec 24) : Word := c.toBits ++ 0b101#3 ++ BitVec.ofBool l ++ off24

/-- Format M (R32). -/
def wordM (c : Cond) (a sf : Bool) (rd rn rs rm : Reg) : Word :=
  c.toBits ++ 0b000000#6 ++ BitVec.ofBool a ++ BitVec.ofBool sf ++ rd ++ rn ++ rs ++ 0b1001#4 ++ rm

/-- Format W (R33). -/
def wordW (c : Cond) (comment24 : BitVec 24) : Word := c.toBits ++ 0b1111#4 ++ comment24

/-- Format DR (R34). -/
def wordDR (c : Cond) (op : DpOp) (sf : Bool) (rn rd : Reg) (o : ShiftedReg) : Word :=
  c.toBits ++ 0b000#3 ++ op.toBits ++ BitVec.ofBool sf ++ rn ++ rd ++ wordSR o

/-- Format DI (R34). -/
def wordDI (c : Cond) (op : DpOp) (sf : Bool) (rn rd : Reg) (o : RotImm) : Word :=
  c.toBits ++ 0b001#3 ++ op.toBits ++ BitVec.ofBool sf ++ rn ++ rd ++ o.rot ++ o.imm8

/-- Formats TI and TR (R36), `i` = bit 25 and `op2` = the low 12 bits. -/
def wordT (c : Cond) (i : Bool) (t : TransferBits) (l : Bool) (rn rd : Reg) (op2 : BitVec 12) : Word :=
  c.toBits ++ 0b01#2 ++ BitVec.ofBool i ++ BitVec.ofBool t.P ++ BitVec.ofBool t.U ++ BitVec.ofBool t.B ++
    BitVec.ofBool t.W ++ BitVec.ofBool l ++ rn ++ rd ++ op2

/-- Format K (R37). -/
def wordK (c : Cond) (m : Mode) (sf wb l : Bool) (rn : Reg) (list : BitVec 16) : Word :=
  c.toBits ++ 0b100#3 ++ m.toBits ++ BitVec.ofBool sf ++ BitVec.ofBool wb ++ BitVec.ofBool l ++ rn ++ list

/-- The word of an instruction, from the format tables R31 to R38. -/
def encode : Instr → Word
  | .b c off24 => wordB c false off24
  | .bl c off24 => wordB c true off24
  | .mul c sf rd rn rs rm => wordM c false sf rd rn rs rm
  | .mla c sf rd rn rs rm => wordM c true sf rd rn rs rm
  | .swi c comment24 => wordW c comment24
  | .andR c sf rn rd o => wordDR c .and sf rn rd o
  | .eorR c sf rn rd o => wordDR c .eor sf rn rd o
  | .subR c sf rn rd o => wordDR c .sub sf rn rd o
  | .rsbR c sf rn rd o => wordDR c .rsb sf rn rd o
  | .addR c sf rn rd o => wordDR c .add sf rn rd o
  | .adcR c sf rn rd o => wordDR c .adc sf rn rd o
  | .sbcR c sf rn rd o => wordDR c .sbc sf rn rd o
  | .rscR c sf rn rd o => wordDR c .rsc sf rn rd o
  | .tstR c sf rn rd o => wordDR c .tst sf rn rd o
  | .teqR c sf rn rd o => wordDR c .teq sf rn rd o
  | .cmpR c sf rn rd o => wordDR c .cmp sf rn rd o
  | .cmnR c sf rn rd o => wordDR c .cmn sf rn rd o
  | .orrR c sf rn rd o => wordDR c .orr sf rn rd o
  | .movR c sf rn rd o => wordDR c .mov sf rn rd o
  | .bicR c sf rn rd o => wordDR c .bic sf rn rd o
  | .mvnR c sf rn rd o => wordDR c .mvn sf rn rd o
  | .andI c sf rn rd o => wordDI c .and sf rn rd o
  | .eorI c sf rn rd o => wordDI c .eor sf rn rd o
  | .subI c sf rn rd o => wordDI c .sub sf rn rd o
  | .rsbI c sf rn rd o => wordDI c .rsb sf rn rd o
  | .addI c sf rn rd o => wordDI c .add sf rn rd o
  | .adcI c sf rn rd o => wordDI c .adc sf rn rd o
  | .sbcI c sf rn rd o => wordDI c .sbc sf rn rd o
  | .rscI c sf rn rd o => wordDI c .rsc sf rn rd o
  | .tstI c sf rn rd o => wordDI c .tst sf rn rd o
  | .teqI c sf rn rd o => wordDI c .teq sf rn rd o
  | .cmpI c sf rn rd o => wordDI c .cmp sf rn rd o
  | .cmnI c sf rn rd o => wordDI c .cmn sf rn rd o
  | .orrI c sf rn rd o => wordDI c .orr sf rn rd o
  | .movI c sf rn rd o => wordDI c .mov sf rn rd o
  | .bicI c sf rn rd o => wordDI c .bic sf rn rd o
  | .mvnI c sf rn rd o => wordDI c .mvn sf rn rd o
  | .strI c t rn rd imm12 => wordT c false t false rn rd imm12
  | .ldrI c t rn rd imm12 => wordT c false t true rn rd imm12
  | .strR c t rn rd o => wordT c true t false rn rd (wordSR o)
  | .ldrR c t rn rd o => wordT c true t true rn rd (wordSR o)
  | .stmda c sf wb rn list => wordK c .da sf wb false rn list
  | .stmia c sf wb rn list => wordK c .ia sf wb false rn list
  | .stmdb c sf wb rn list => wordK c .db sf wb false rn list
  | .stmib c sf wb rn list => wordK c .ib sf wb false rn list
  | .ldmda c sf wb rn list => wordK c .da sf wb true rn list
  | .ldmia c sf wb rn list => wordK c .ia sf wb true rn list
  | .ldmdb c sf wb rn list => wordK c .db sf wb true rn list
  | .ldmib c sf wb rn list => wordK c .ib sf wb true rn list
  | .rawHigh6 w => w
  | .rawHigh7 w => w

/-! ## The opcode table (30_encoding.md R43), as data -/

/-- One row of spec/opcode_table.json: its mnemonic, `mask`, `match` and `priority`. -/
structure Row where
  mnemonic : String
  mask : Word
  pattern : Word
  priority : Nat
  deriving DecidableEq, Repr

/-- The register-form (`form = 0`) or immediate-form (`form = 1`) rows, in `DPNAME` order. -/
def dpRows (form : Word) : List Row :=
  [("and", 0), ("eor", 1), ("sub", 2), ("rsb", 3), ("add", 4), ("adc", 5), ("sbc", 6), ("rsc", 7), ("tst", 8), ("teq", 9),
    ("cmp", 10), ("cmn", 11), ("orr", 12), ("mov", 13), ("bic", 14), ("mvn", 15)].map
      fun r => ⟨r.1, 0x0fe00000, (form <<< 25) ||| (r.2 <<< 21), 4⟩

/-- The 51 rows, in the order of the file. -/
def opcodeTable : List Row :=
  [⟨"b", 0x0f000000, 0x0a000000, 1⟩, ⟨"bl", 0x0f000000, 0x0b000000, 1⟩, ⟨"mul", 0x0fe000f0, 0x00000090, 2⟩,
    ⟨"mla", 0x0fe000f0, 0x00200090, 2⟩, ⟨"swi", 0x0f000000, 0x0f000000, 3⟩] ++ dpRows 0 ++ dpRows 1 ++
  [⟨"str", 0x0e100000, 0x04000000, 5⟩, ⟨"ldr", 0x0e100000, 0x04100000, 5⟩, ⟨"str", 0x0e100000, 0x06000000, 5⟩,
    ⟨"ldr", 0x0e100000, 0x06100000, 5⟩] ++
  [⟨"stmda", 0x0f900000, 0x08000000, 6⟩, ⟨"stmia", 0x0f900000, 0x08800000, 6⟩, ⟨"stmdb", 0x0f900000, 0x09000000, 6⟩,
    ⟨"stmib", 0x0f900000, 0x09800000, 6⟩, ⟨"ldmda", 0x0f900000, 0x08100000, 6⟩, ⟨"ldmia", 0x0f900000, 0x08900000, 6⟩,
    ⟨"ldmdb", 0x0f900000, 0x09100000, 6⟩, ⟨"ldmib", 0x0f900000, 0x09900000, 6⟩] ++
  [⟨".word", 0x0e000000, 0x0c000000, 7⟩, ⟨".word", 0x0f000000, 0x0e000000, 7⟩]

/-- The place of an instruction's row in `opcodeTable`, counted from 0. -/
def Instr.rowIndex : Instr → Nat
  | .b _ _ => 0
  | .bl _ _ => 1
  | .mul _ _ _ _ _ _ => 2
  | .mla _ _ _ _ _ _ => 3
  | .swi _ _ => 4
  | .andR _ _ _ _ _ => 5
  | .eorR _ _ _ _ _ => 6
  | .subR _ _ _ _ _ => 7
  | .rsbR _ _ _ _ _ => 8
  | .addR _ _ _ _ _ => 9
  | .adcR _ _ _ _ _ => 10
  | .sbcR _ _ _ _ _ => 11
  | .rscR _ _ _ _ _ => 12
  | .tstR _ _ _ _ _ => 13
  | .teqR _ _ _ _ _ => 14
  | .cmpR _ _ _ _ _ => 15
  | .cmnR _ _ _ _ _ => 16
  | .orrR _ _ _ _ _ => 17
  | .movR _ _ _ _ _ => 18
  | .bicR _ _ _ _ _ => 19
  | .mvnR _ _ _ _ _ => 20
  | .andI _ _ _ _ _ => 21
  | .eorI _ _ _ _ _ => 22
  | .subI _ _ _ _ _ => 23
  | .rsbI _ _ _ _ _ => 24
  | .addI _ _ _ _ _ => 25
  | .adcI _ _ _ _ _ => 26
  | .sbcI _ _ _ _ _ => 27
  | .rscI _ _ _ _ _ => 28
  | .tstI _ _ _ _ _ => 29
  | .teqI _ _ _ _ _ => 30
  | .cmpI _ _ _ _ _ => 31
  | .cmnI _ _ _ _ _ => 32
  | .orrI _ _ _ _ _ => 33
  | .movI _ _ _ _ _ => 34
  | .bicI _ _ _ _ _ => 35
  | .mvnI _ _ _ _ _ => 36
  | .strI _ _ _ _ _ => 37
  | .ldrI _ _ _ _ _ => 38
  | .strR _ _ _ _ _ => 39
  | .ldrR _ _ _ _ _ => 40
  | .stmda _ _ _ _ _ => 41
  | .stmia _ _ _ _ _ => 42
  | .stmdb _ _ _ _ _ => 43
  | .stmib _ _ _ _ _ => 44
  | .ldmda _ _ _ _ _ => 45
  | .ldmia _ _ _ _ _ => 46
  | .ldmdb _ _ _ _ _ => 47
  | .ldmib _ _ _ _ _ => 48
  | .rawHigh6 _ => 49
  | .rawHigh7 _ => 50

end Sys2Proof
end

