-- ==== Sys2Proof/Machine/Ops.lean ====
section
/-! DEFINITION. The named operations over the state: the block drives its output ports; the host presents the next
(address, word) pair and receives the line (20_memory.md R20 to R23).  There is no memory or register operation (R24,
10_state.md R11), and no exception entry or return to share (60_exceptions.md R140, R144). -/

namespace Sys2Proof.Machine

/-! ## The block -/

/-- The output ports take the values of one evaluation (R19, R134); nothing else changes (R10).  Only the branch family has
a computed target (R57). -/
def State.drive (s : State) (fam : Family) (f : Fields) (text : Text) (target : Option Word := none) : State :=
  { s with family := fam, fields := f, target := target, line := assembleLine s.addr s.word text }

/-- The outcome of every meaning: the settled outputs, never a fault (R140). -/
def settle (s : State) (fam : Family) (f : Fields) (text : Text) (target : Option Word := none) : Result :=
  .next (s.drive fam f text target)

/-! ## The host -/

/-- The address of word number `i` of the stream: `BASE_ADDR +32 4*i` (R21). -/
def streamAddr (base : Word) (i : Nat) : Word := base + 4 * BitVec.ofNat 32 i

/-- The host presents the next chunk: the assembled word (R20) with its address (R21). -/
def State.present (s : State) (k : Chunk) (rest : List Chunk) : State :=
  { s with
    addr := streamAddr s.baseAddr s.presented
    word := assemble k
    presented := s.presented + 1
    stream := rest }

/-- The input ports for the next evaluation.  With nothing left to present the host holds the inputs steady (log
entry 5). -/
def State.fetch (s : State) : State :=
  match s.stream with
  | [] => s
  | k :: rest => s.present k rest

/-- The host receives the line, after the lines it has (R23). -/
def State.deliver (s : State) : State := { s with lines := s.lines ++ [s.line] }

/-- What the host does after the evaluation that began in `s`: it receives the line of a word it presented. -/
def finish (s : State) (r : Result) : Result :=
  match s.stream, r with
  | _ :: _, .next t => .next t.deliver
  | _, r => r

/-- The word that the host presents next is `w`: its four bytes replace the head of the queue. -/
def State.putNext (s : State) (w : Word) : State := { s with stream := chunkOf w :: s.stream.drop 1 }

/-! ## Loading an input stream -/

/-- The host's chunking of a byte stream: the whole chunks, and the zero to three bytes left over, for which the spec
gives no rule (60_exceptions.md R142, 91_not_in_source.md N14). -/
def chunks : List Byte → List Chunk × List Byte
  | b0 :: b1 :: b2 :: b3 :: rest =>
    let r := chunks rest
    (⟨b0, b1, b2, b3⟩ :: r.1, r.2)
  | rest => ([], rest)

/-- The machine before the first evaluation of a stream: `BASE_ADDR` and the bytes are set up (R152). -/
def State.load (s : State) (base : Word) (input : List Chunk) : State :=
  { s with baseAddr := base, presented := 0, stream := input, lines := [] }

end Sys2Proof.Machine
end

