-- ==== Sys2Proof/Machine/BlockTransfer.lean ====
section
/-! DEFINITION. The block-data-transfer family (48_block_data_transfer.md): `ldm`, `stm`, each with four modes.  Nothing
is transferred (20_memory.md R24). -/

namespace Sys2Proof.Machine

/-- The block-data-transfer renderer (R122): name, condition, mode, base with `!`, list in braces, `^`. -/
def blockTransfer (name : Text) (load : Bool) (m : Mode) (c : Cond) (sf wb : Bool) (rn : Reg) (list : BitVec 16)
    (s : State) : Result :=
  settle s .blockTransfer
    (.blockTransfer { cond := c, PU := m, S := sf, W := wb, L := load, Rn := rn, list := list })
    (name ++ condText c ++ modeName m ++ " ".toList ++ reg rn ++ writebackMark wb ++ ",".toList ++ [lbrace] ++
      reglist list ++ [rbrace] ++ userBankMark sf)

/-- `stmda` (R124). -/
def execStmda (c : Cond) (sf wb : Bool) (rn : Reg) (list : BitVec 16) (s : State) : Result :=
  blockTransfer "stm".toList false .da c sf wb rn list s

/-- `stmia` (R124). -/
def execStmia (c : Cond) (sf wb : Bool) (rn : Reg) (list : BitVec 16) (s : State) : Result :=
  blockTransfer "stm".toList false .ia c sf wb rn list s

/-- `stmdb` (R124). -/
def execStmdb (c : Cond) (sf wb : Bool) (rn : Reg) (list : BitVec 16) (s : State) : Result :=
  blockTransfer "stm".toList false .db c sf wb rn list s

/-- `stmib` (R124). -/
def execStmib (c : Cond) (sf wb : Bool) (rn : Reg) (list : BitVec 16) (s : State) : Result :=
  blockTransfer "stm".toList false .ib c sf wb rn list s

/-- `ldmda` (R123). -/
def execLdmda (c : Cond) (sf wb : Bool) (rn : Reg) (list : BitVec 16) (s : State) : Result :=
  blockTransfer "ldm".toList true .da c sf wb rn list s

/-- `ldmia` (R123). -/
def execLdmia (c : Cond) (sf wb : Bool) (rn : Reg) (list : BitVec 16) (s : State) : Result :=
  blockTransfer "ldm".toList true .ia c sf wb rn list s

/-- `ldmdb` (R123). -/
def execLdmdb (c : Cond) (sf wb : Bool) (rn : Reg) (list : BitVec 16) (s : State) : Result :=
  blockTransfer "ldm".toList true .db c sf wb rn list s

/-- `ldmib` (R123). -/
def execLdmib (c : Cond) (sf wb : Bool) (rn : Reg) (list : BitVec 16) (s : State) : Result :=
  blockTransfer "ldm".toList true .ib c sf wb rn list s

end Sys2Proof.Machine
end

