-- ==== Sys2Proof/Machine/Branch.lean ====
section
/-! DEFINITION. The branch family (42_branch.md): `b`, `bl`. -/

namespace Sys2Proof.Machine

/-- The branch renderer (R70): it prints where the branch would go and transfers no control. -/
def branch (name : Text) (link : Bool) (c : Cond) (off24 : BitVec 24) (s : State) : Result :=
  let target := branchTarget s.addr off24
  settle s .branch (.branch ⟨c, link, off24⟩) (name ++ condText c ++ " ".toList ++ hex8 target) (some target)

/-- `b` (R71). -/
def execB (c : Cond) (off24 : BitVec 24) (s : State) : Result := branch "b".toList false c off24 s

/-- `bl` (R72): the link bit changes only the mnemonic. -/
def execBl (c : Cond) (off24 : BitVec 24) (s : State) : Result := branch "bl".toList true c off24 s

end Sys2Proof.Machine
end

