-- ==== Sys2Proof/Machine/DataProcessing.lean ====
section
/-! DEFINITION. The data-processing family (45_data_processing.md), sixteen mnemonics in two forms.  No sum, no logical
result and no flag is computed: the rules give the text only (00_scope.md R9). -/

namespace Sys2Proof.Machine

/-- Whether a second operand is the immediate form, the field `I` (R85). -/
def Operand2.isImm : Operand2 → Bool
  | .imm _ _ _ => true
  | .reg _ => false

/-- The `fields` of a data-processing word (40_classifier.md R57). -/
def dpFields (op : DpOp) (c : Cond) (sf : Bool) (rn rd : Reg) (op2 : Operand2) : Fields :=
  .dataProcessing { cond := c, I := op2.isImm, opc := op, S := sf, Rn := rn, Rd := rd, op2 := op2 }

/-- Class A, two-operand form (R86): `<name><cond>[s] rD,rN<op2>`. -/
def twoOperand (op : DpOp) (c : Cond) (sf : Bool) (rn rd : Reg) (op2 : Operand2) (s : State) : Result :=
  settle s .dataProcessing (dpFields op c sf rn rd op2)
    (dpName op ++ condText c ++ setFlagsLetter sf ++ " ".toList ++ reg rd ++ ",".toList ++ reg rn ++ operand2Text op2)

/-- Class B, comparison form (R86, R106): `<name><cond>[p] rN<op2>`; `sf` is ignored (92_eei_decisions.md D18). -/
def comparison (op : DpOp) (c : Cond) (sf : Bool) (rn rd : Reg) (op2 : Operand2) (s : State) : Result :=
  settle s .dataProcessing (dpFields op c sf rn rd op2)
    (dpName op ++ condText c ++ comparisonLetter rd ++ " ".toList ++ reg rn ++ operand2Text op2)

/-- Class C, single-destination form (R86): `<name><cond>[s] rD<op2>`; `rn` is ignored. -/
def singleDestination (op : DpOp) (c : Cond) (sf : Bool) (rn rd : Reg) (op2 : Operand2) (s : State) : Result :=
  settle s .dataProcessing (dpFields op c sf rn rd op2)
    (dpName op ++ condText c ++ setFlagsLetter sf ++ " ".toList ++ reg rd ++ operand2Text op2)

/-! ## Register forms -/

/-- `and`, register form (R90). -/
def execAndR (c : Cond) (sf : Bool) (rn rd : Reg) (o : ShiftedReg) (s : State) : Result :=
  twoOperand .and c sf rn rd (.reg o) s

/-- `eor`, register form (R91). -/
def execEorR (c : Cond) (sf : Bool) (rn rd : Reg) (o : ShiftedReg) (s : State) : Result :=
  twoOperand .eor c sf rn rd (.reg o) s

/-- `sub`, register form (R92). -/
def execSubR (c : Cond) (sf : Bool) (rn rd : Reg) (o : ShiftedReg) (s : State) : Result :=
  twoOperand .sub c sf rn rd (.reg o) s

/-- `rsb`, register form (R93). -/
def execRsbR (c : Cond) (sf : Bool) (rn rd : Reg) (o : ShiftedReg) (s : State) : Result :=
  twoOperand .rsb c sf rn rd (.reg o) s

/-- `add`, register form (R94). -/
def execAddR (c : Cond) (sf : Bool) (rn rd : Reg) (o : ShiftedReg) (s : State) : Result :=
  twoOperand .add c sf rn rd (.reg o) s

/-- `adc`, register form (R95). -/
def execAdcR (c : Cond) (sf : Bool) (rn rd : Reg) (o : ShiftedReg) (s : State) : Result :=
  twoOperand .adc c sf rn rd (.reg o) s

/-- `sbc`, register form (R96). -/
def execSbcR (c : Cond) (sf : Bool) (rn rd : Reg) (o : ShiftedReg) (s : State) : Result :=
  twoOperand .sbc c sf rn rd (.reg o) s

/-- `rsc`, register form (R97). -/
def execRscR (c : Cond) (sf : Bool) (rn rd : Reg) (o : ShiftedReg) (s : State) : Result :=
  twoOperand .rsc c sf rn rd (.reg o) s

/-- `tst`, register form (R100). -/
def execTstR (c : Cond) (sf : Bool) (rn rd : Reg) (o : ShiftedReg) (s : State) : Result :=
  comparison .tst c sf rn rd (.reg o) s

/-- `teq`, register form (R101). -/
def execTeqR (c : Cond) (sf : Bool) (rn rd : Reg) (o : ShiftedReg) (s : State) : Result :=
  comparison .teq c sf rn rd (.reg o) s

/-- `cmp`, register form (R102). -/
def execCmpR (c : Cond) (sf : Bool) (rn rd : Reg) (o : ShiftedReg) (s : State) : Result :=
  comparison .cmp c sf rn rd (.reg o) s

/-- `cmn`, register form (R103). -/
def execCmnR (c : Cond) (sf : Bool) (rn rd : Reg) (o : ShiftedReg) (s : State) : Result :=
  comparison .cmn c sf rn rd (.reg o) s

/-- `orr`, register form (R98). -/
def execOrrR (c : Cond) (sf : Bool) (rn rd : Reg) (o : ShiftedReg) (s : State) : Result :=
  twoOperand .orr c sf rn rd (.reg o) s

/-- `mov`, register form (R104). -/
def execMovR (c : Cond) (sf : Bool) (rn rd : Reg) (o : ShiftedReg) (s : State) : Result :=
  singleDestination .mov c sf rn rd (.reg o) s

/-- `bic`, register form (R99). -/
def execBicR (c : Cond) (sf : Bool) (rn rd : Reg) (o : ShiftedReg) (s : State) : Result :=
  twoOperand .bic c sf rn rd (.reg o) s

/-- `mvn`, register form (R105). -/
def execMvnR (c : Cond) (sf : Bool) (rn rd : Reg) (o : ShiftedReg) (s : State) : Result :=
  singleDestination .mvn c sf rn rd (.reg o) s

/-! ## Immediate forms -/

/-- `and`, immediate form (R90). -/
def execAndI (c : Cond) (sf : Bool) (rn rd : Reg) (o : RotImm) (s : State) : Result :=
  twoOperand .and c sf rn rd (immOperand o) s

/-- `eor`, immediate form (R91). -/
def execEorI (c : Cond) (sf : Bool) (rn rd : Reg) (o : RotImm) (s : State) : Result :=
  twoOperand .eor c sf rn rd (immOperand o) s

/-- `sub`, immediate form (R92). -/
def execSubI (c : Cond) (sf : Bool) (rn rd : Reg) (o : RotImm) (s : State) : Result :=
  twoOperand .sub c sf rn rd (immOperand o) s

/-- `rsb`, immediate form (R93). -/
def execRsbI (c : Cond) (sf : Bool) (rn rd : Reg) (o : RotImm) (s : State) : Result :=
  twoOperand .rsb c sf rn rd (immOperand o) s

/-- `add`, immediate form (R94). -/
def execAddI (c : Cond) (sf : Bool) (rn rd : Reg) (o : RotImm) (s : State) : Result :=
  twoOperand .add c sf rn rd (immOperand o) s

/-- `adc`, immediate form (R95). -/
def execAdcI (c : Cond) (sf : Bool) (rn rd : Reg) (o : RotImm) (s : State) : Result :=
  twoOperand .adc c sf rn rd (immOperand o) s

/-- `sbc`, immediate form (R96). -/
def execSbcI (c : Cond) (sf : Bool) (rn rd : Reg) (o : RotImm) (s : State) : Result :=
  twoOperand .sbc c sf rn rd (immOperand o) s

/-- `rsc`, immediate form (R97). -/
def execRscI (c : Cond) (sf : Bool) (rn rd : Reg) (o : RotImm) (s : State) : Result :=
  twoOperand .rsc c sf rn rd (immOperand o) s

/-- `tst`, immediate form (R100). -/
def execTstI (c : Cond) (sf : Bool) (rn rd : Reg) (o : RotImm) (s : State) : Result :=
  comparison .tst c sf rn rd (immOperand o) s

/-- `teq`, immediate form (R101). -/
def execTeqI (c : Cond) (sf : Bool) (rn rd : Reg) (o : RotImm) (s : State) : Result :=
  comparison .teq c sf rn rd (immOperand o) s

/-- `cmp`, immediate form (R102). -/
def execCmpI (c : Cond) (sf : Bool) (rn rd : Reg) (o : RotImm) (s : State) : Result :=
  comparison .cmp c sf rn rd (immOperand o) s

/-- `cmn`, immediate form (R103). -/
def execCmnI (c : Cond) (sf : Bool) (rn rd : Reg) (o : RotImm) (s : State) : Result :=
  comparison .cmn c sf rn rd (immOperand o) s

/-- `orr`, immediate form (R98). -/
def execOrrI (c : Cond) (sf : Bool) (rn rd : Reg) (o : RotImm) (s : State) : Result :=
  twoOperand .orr c sf rn rd (immOperand o) s

/-- `mov`, immediate form (R104). -/
def execMovI (c : Cond) (sf : Bool) (rn rd : Reg) (o : RotImm) (s : State) : Result :=
  singleDestination .mov c sf rn rd (immOperand o) s

/-- `bic`, immediate form (R99). -/
def execBicI (c : Cond) (sf : Bool) (rn rd : Reg) (o : RotImm) (s : State) : Result :=
  twoOperand .bic c sf rn rd (immOperand o) s

/-- `mvn`, immediate form (R105). -/
def execMvnI (c : Cond) (sf : Bool) (rn rd : Reg) (o : RotImm) (s : State) : Result :=
  singleDestination .mvn c sf rn rd (immOperand o) s

end Sys2Proof.Machine
end

