-- ==== Sys2Proof/Machine/Multiply.lean ====
section
/-! DEFINITION. The multiply family (43_multiply.md): `mul`, `mla`. -/

namespace Sys2Proof.Machine

/-- The multiply renderer (R75): destination, operand 1 `rm`, operand 2 `rs` and, with `acc`, the accumulate
register `rn`. -/
def multiply (name : Text) (acc : Bool) (c : Cond) (sf : Bool) (rd rn rs rm : Reg) (s : State) : Result :=
  settle s .multiply (.multiply { cond := c, A := acc, S := sf, Rd := rd, Rm := rm, Rs := rs, Rn := rn })
    (name ++ condText c ++ setFlagsLetter sf ++ " ".toList ++ reg rd ++ ",".toList ++ reg rm ++ ",".toList ++ reg rs ++
      if acc then ",".toList ++ reg rn else [])

/-- `mul` (R76): three registers; `rn` reaches no text. -/
def execMul (c : Cond) (sf : Bool) (rd rn rs rm : Reg) (s : State) : Result :=
  multiply "mul".toList false c sf rd rn rs rm s

/-- `mla` (R77): four registers. -/
def execMla (c : Cond) (sf : Bool) (rd rn rs rm : Reg) (s : State) : Result :=
  multiply "mla".toList true c sf rd rn rs rm s

end Sys2Proof.Machine
end

