-- ==== Sys2Proof/Machine/RawWord.lean ====
section
/-! DEFINITION. The raw word, family Unknown (49_fallback_and_line.md R131, R132). -/

namespace Sys2Proof.Machine

/-- `text_raw(word)`, defined for every word, not only for those of family Unknown (R132). -/
def textRaw (p : Params) (word : Word) : Text := p.marker ++ hex8 word

/-- The fallback renderer (R131): the designed rendering of an unknown encoding, not an error. -/
def rawWord (w : Word) (s : State) : Result := settle s .unknown (.unknown w) (textRaw Config.params w)

/-- Raw word, `high3 = 110` (R131). -/
def execRawHigh6 (w : Word) (s : State) : Result := rawWord w s

/-- Raw word, `high3 = 111` with bit 24 clear (R131, 44_swi.md R81). -/
def execRawHigh7 (w : Word) (s : State) : Result := rawWord w s

end Sys2Proof.Machine
end

