-- ==== Sys2Proof/Machine/SingleTransfer.lean ====
section
/-! DEFINITION. The single-data-transfer family (47_single_data_transfer.md): `ldr`, `str`, with `b` for a byte, in the
register-offset form and in the 12-bit-immediate form, which prints the placeholder (R118).  Nothing is loaded or
stored (20_memory.md R24). -/

namespace Sys2Proof.Machine

/-- Whether an offset is the register form, the field `I` (R115: bit 25 set is the register form here). -/
def Offset.isReg : Offset → Bool
  | .imm12 _ => false
  | .reg _ => true

/-- The single-data-transfer renderer (R115); `P`, `U` and `W` reach only the `fields` output (R119). -/
def singleTransfer (name : Text) (load : Bool) (c : Cond) (t : TransferBits) (rn rd : Reg) (off : Offset) (s : State) :
    Result :=
  settle s .singleTransfer
    (.singleTransfer
      { cond := c, I := off.isReg, P := t.P, U := t.U, B := t.B, W := t.W, L := load, Rn := rn, Rd := rd, offset := off })
    (name ++ condText c ++ byteLetter t.B ++ " ".toList ++ reg rd ++ ",[".toList ++ reg rn ++
      offsetText Config.params off ++ "]".toList)

/-- `str`, immediate-offset form (R117, R118). -/
def execStrI (c : Cond) (t : TransferBits) (rn rd : Reg) (imm12 : BitVec 12) (s : State) : Result :=
  singleTransfer "str".toList false c t rn rd (.imm12 imm12) s

/-- `str`, register-offset form (R117). -/
def execStrR (c : Cond) (t : TransferBits) (rn rd : Reg) (o : ShiftedReg) (s : State) : Result :=
  singleTransfer "str".toList false c t rn rd (.reg o) s

/-- `ldr`, immediate-offset form (R116, R118). -/
def execLdrI (c : Cond) (t : TransferBits) (rn rd : Reg) (imm12 : BitVec 12) (s : State) : Result :=
  singleTransfer "ldr".toList true c t rn rd (.imm12 imm12) s

/-- `ldr`, register-offset form (R116). -/
def execLdrR (c : Cond) (t : TransferBits) (rn rd : Reg) (o : ShiftedReg) (s : State) : Result :=
  singleTransfer "ldr".toList true c t rn rd (.reg o) s

end Sys2Proof.Machine
end

