-- ==== Sys2Proof/Machine/Swi.lean ====
section
/-! DEFINITION. The software-interrupt family (44_swi.md).  The word is printed; no interrupt is raised and no handler
entered (R80, 60_exceptions.md R143). -/

namespace Sys2Proof.Machine

/-- `swi` (R80): the comment as an unsigned decimal number. -/
def execSwi (c : Cond) (comment24 : BitVec 24) (s : State) : Result :=
  settle s .swi (.swi ⟨c, comment24⟩)
    ("swi".toList ++ condText c ++ " ".toList ++ dec (comment24.zeroExtend 32))

end Sys2Proof.Machine
end

