-- ==== Sys2Proof/Machine/Dispatch.lean ====
section
/-! DEFINITION. One arm per constructor of Instr: the multiplexer of 40_classifier.md R56. -/

namespace Sys2Proof.Machine

def exec (i : Instr) (s : State) : Host.Outcome State Fault Refusal :=
  match i with
  | .b c off24 => Sys2Proof.Machine.execB c off24 s
  | .bl c off24 => Sys2Proof.Machine.execBl c off24 s
  | .mul c sf rd rn rs rm => Sys2Proof.Machine.execMul c sf rd rn rs rm s
  | .mla c sf rd rn rs rm => Sys2Proof.Machine.execMla c sf rd rn rs rm s
  | .swi c comment24 => Sys2Proof.Machine.execSwi c comment24 s
  | .andR c sf rn rd o => Sys2Proof.Machine.execAndR c sf rn rd o s
  | .eorR c sf rn rd o => Sys2Proof.Machine.execEorR c sf rn rd o s
  | .subR c sf rn rd o => Sys2Proof.Machine.execSubR c sf rn rd o s
  | .rsbR c sf rn rd o => Sys2Proof.Machine.execRsbR c sf rn rd o s
  | .addR c sf rn rd o => Sys2Proof.Machine.execAddR c sf rn rd o s
  | .adcR c sf rn rd o => Sys2Proof.Machine.execAdcR c sf rn rd o s
  | .sbcR c sf rn rd o => Sys2Proof.Machine.execSbcR c sf rn rd o s
  | .rscR c sf rn rd o => Sys2Proof.Machine.execRscR c sf rn rd o s
  | .tstR c sf rn rd o => Sys2Proof.Machine.execTstR c sf rn rd o s
  | .teqR c sf rn rd o => Sys2Proof.Machine.execTeqR c sf rn rd o s
  | .cmpR c sf rn rd o => Sys2Proof.Machine.execCmpR c sf rn rd o s
  | .cmnR c sf rn rd o => Sys2Proof.Machine.execCmnR c sf rn rd o s
  | .orrR c sf rn rd o => Sys2Proof.Machine.execOrrR c sf rn rd o s
  | .movR c sf rn rd o => Sys2Proof.Machine.execMovR c sf rn rd o s
  | .bicR c sf rn rd o => Sys2Proof.Machine.execBicR c sf rn rd o s
  | .mvnR c sf rn rd o => Sys2Proof.Machine.execMvnR c sf rn rd o s
  | .andI c sf rn rd o => Sys2Proof.Machine.execAndI c sf rn rd o s
  | .eorI c sf rn rd o => Sys2Proof.Machine.execEorI c sf rn rd o s
  | .subI c sf rn rd o => Sys2Proof.Machine.execSubI c sf rn rd o s
  | .rsbI c sf rn rd o => Sys2Proof.Machine.execRsbI c sf rn rd o s
  | .addI c sf rn rd o => Sys2Proof.Machine.execAddI c sf rn rd o s
  | .adcI c sf rn rd o => Sys2Proof.Machine.execAdcI c sf rn rd o s
  | .sbcI c sf rn rd o => Sys2Proof.Machine.execSbcI c sf rn rd o s
  | .rscI c sf rn rd o => Sys2Proof.Machine.execRscI c sf rn rd o s
  | .tstI c sf rn rd o => Sys2Proof.Machine.execTstI c sf rn rd o s
  | .teqI c sf rn rd o => Sys2Proof.Machine.execTeqI c sf rn rd o s
  | .cmpI c sf rn rd o => Sys2Proof.Machine.execCmpI c sf rn rd o s
  | .cmnI c sf rn rd o => Sys2Proof.Machine.execCmnI c sf rn rd o s
  | .orrI c sf rn rd o => Sys2Proof.Machine.execOrrI c sf rn rd o s
  | .movI c sf rn rd o => Sys2Proof.Machine.execMovI c sf rn rd o s
  | .bicI c sf rn rd o => Sys2Proof.Machine.execBicI c sf rn rd o s
  | .mvnI c sf rn rd o => Sys2Proof.Machine.execMvnI c sf rn rd o s
  | .strI c t rn rd imm12 => Sys2Proof.Machine.execStrI c t rn rd imm12 s
  | .ldrI c t rn rd imm12 => Sys2Proof.Machine.execLdrI c t rn rd imm12 s
  | .strR c t rn rd o => Sys2Proof.Machine.execStrR c t rn rd o s
  | .ldrR c t rn rd o => Sys2Proof.Machine.execLdrR c t rn rd o s
  | .stmda c sf wb rn list => Sys2Proof.Machine.execStmda c sf wb rn list s
  | .stmia c sf wb rn list => Sys2Proof.Machine.execStmia c sf wb rn list s
  | .stmdb c sf wb rn list => Sys2Proof.Machine.execStmdb c sf wb rn list s
  | .stmib c sf wb rn list => Sys2Proof.Machine.execStmib c sf wb rn list s
  | .ldmda c sf wb rn list => Sys2Proof.Machine.execLdmda c sf wb rn list s
  | .ldmia c sf wb rn list => Sys2Proof.Machine.execLdmia c sf wb rn list s
  | .ldmdb c sf wb rn list => Sys2Proof.Machine.execLdmdb c sf wb rn list s
  | .ldmib c sf wb rn list => Sys2Proof.Machine.execLdmib c sf wb rn list s
  | .rawHigh6 w => Sys2Proof.Machine.execRawHigh6 w s
  | .rawHigh7 w => Sys2Proof.Machine.execRawHigh7 w s

end Sys2Proof.Machine
end

