-- ==== Sys2Proof/Machine/Step.lean ====
section
/-! DEFINITION. One step is one evaluation (00_scope.md R7 item 1): the host presents the next pair, the block settles,
the host receives the line. -/

namespace Sys2Proof.Machine

/-- One evaluation, atomic (70_reset_and_hazards.md R156). -/
def step (s : State) : Host.Outcome State Fault Refusal :=
  finish s (exec (decode s.fetch.word) s.fetch)

/-- The next word the host presents is the instruction whose 32 bits are `w`; bits above `nbits` are zero. -/
def State.withFetchWord (s : State) (nbits w : Nat) : State := s.putNext (BitVec.ofNat 32 (w % 2 ^ nbits))

end Sys2Proof.Machine
end

