-- ==== Sys2Proof/Machine/Block.lean ====
section
/-! DEFINITION. The whole block in one place, as 49_fallback_and_line.md R136 collects it: each renderer written on the
bits of the word, in the words of its rule's pseudocode, total on all words (40_classifier.md R56).  The machine does
not run on this text; it is the page the machine is compared with. -/

namespace Sys2Proof.Machine.Block

/-- `cond(word[31:28])` (R60). -/
def condSuffix (word : Word) : Text := entry COND (word.extractLsb' 28 4).toNat

/-- `target` of R70. -/
def target (addr word : Word) : Word := addr + 8 + ((word.extractLsb' 0 24).signExtend 32 <<< 2)

/-- `imm32` of R40: the shift into a 64-bit accumulator, the overflow folded back into the low end. -/
def immediate (word : Word) : Word :=
  let acc : BitVec 64 := (word.extractLsb' 0 8).zeroExtend 64 <<< (2 * (word.extractLsb' 8 4).toNat)
  acc.extractLsb' 0 32 ||| acc.extractLsb' 32 32

/-- `shreg(word[11:0])` (R110). -/
def shiftedRegister (word : Word) : Text :=
  ",".toList ++ reg (word.extractLsb' 0 4) ++
    (if word.extractLsb' 4 8 ≠ 0 then
      " ".toList ++ entry SHIFT (word.extractLsb' 5 2).toNat ++ " ".toList ++
        (if word.getLsbD 4 then reg (word.extractLsb' 8 4) else dec ((word.extractLsb' 8 4).zeroExtend 32))
    else [])

/-- R70. -/
def textBranch (addr word : Word) : Text :=
  (if word.getLsbD 24 then "bl" else "b").toList ++ condSuffix word ++ " ".toList ++ hex8 (target addr word)

/-- R75. -/
def textMultiply (word : Word) : Text :=
  (if word.getLsbD 21 then "mla" else "mul").toList ++ condSuffix word ++
    (if word.getLsbD 20 then "s" else "").toList ++ " ".toList ++ reg (word.extractLsb' 16 4) ++ ",".toList ++
    reg (word.extractLsb' 0 4) ++ ",".toList ++ reg (word.extractLsb' 8 4) ++
    (if word.getLsbD 21 then ",".toList ++ reg (word.extractLsb' 12 4) else [])

/-- R80. -/
def textSwi (word : Word) : Text :=
  "swi".toList ++ condSuffix word ++ " ".toList ++ dec ((word.extractLsb' 0 24).zeroExtend 32)

/-- R89. -/
def textDp (word : Word) : Text :=
  let opc := word.extractLsb' 21 4
  let name := entry DPNAME opc.toNat ++ condSuffix word
  let setFlags := (if word.getLsbD 20 then "s" else "").toList
  let rn := reg (word.extractLsb' 16 4)
  let rd := reg (word.extractLsb' 12 4)
  let head :=
    if opc.getLsbD 3 = false ∨ opc = 0xc ∨ opc = 0xe then name ++ setFlags ++ " ".toList ++ rd ++ ",".toList ++ rn
    else if opc.extractLsb' 2 2 = 0b10 then
      name ++ (if word.extractLsb' 12 4 = 15 then "p" else "").toList ++ " ".toList ++ rn
    else name ++ setFlags ++ " ".toList ++ rd
  head ++ if word.getLsbD 25 then ",".toList ++ dec (immediate word) else shiftedRegister word

/-- R115. -/
def textSdt (p : Params) (word : Word) : Text :=
  (if word.getLsbD 20 then "ldr" else "str").toList ++ condSuffix word ++
    (if word.getLsbD 22 then "b" else "").toList ++ " ".toList ++ reg (word.extractLsb' 12 4) ++ ",[".toList ++
    reg (word.extractLsb' 16 4) ++ (if word.getLsbD 25 then shiftedRegister word else p.placeholder) ++ "]".toList

/-- The names of the set bits `i, i+1, …` of a list, ascending, each after the first with a comma before it (R126). -/
def listFrom (list : BitVec 16) : Nat → Nat → Text → Text
  | 0, _, _ => []
  | n + 1, i, comma =>
    if list.getLsbD i then comma ++ reg (BitVec.ofNat 4 i) ++ listFrom list n (i + 1) ",".toList
    else listFrom list n (i + 1) comma

/-- R122. -/
def textBdt (word : Word) : Text :=
  (if word.getLsbD 20 then "ldm" else "stm").toList ++ condSuffix word ++
    entry MODE (word.extractLsb' 23 2).toNat ++ " ".toList ++ reg (word.extractLsb' 16 4) ++
    (if word.getLsbD 21 then "!" else "").toList ++ ",".toList ++ [lbrace] ++
    listFrom (word.extractLsb' 0 16) 16 0 [] ++ [rbrace] ++ (if word.getLsbD 22 then "^" else "").toList

/-- The multiplexer (40_classifier.md R56). -/
def text (p : Params) (addr word : Word) : Text :=
  match classify word with
  | .branch => textBranch addr word
  | .multiply => textMultiply word
  | .swi => textSwi word
  | .dataProcessing => textDp word
  | .singleTransfer => textSdt p word
  | .blockTransfer => textBdt word
  | .unknown => textRaw p word

/-- The line (R134). -/
def line (p : Params) (addr word : Word) : Text :=
  hex8 addr ++ " : ".toList ++ hex8 word ++ " : ".toList ++ text p addr word

/-- `fields(family, word)` of R136, the fields of 40_classifier.md R57 that are extracted from the word: they do not depend
on `addr` (R137). -/
def fields (fam : Family) (word : Word) : Fields :=
  match fam with
  | .branch => .branch { cond := condOf word, L := word.getLsbD 24, off24 := word.extractLsb' 0 24 }
  | .multiply => .multiply
      { cond := condOf word, A := word.getLsbD 21, S := word.getLsbD 20, Rd := word.extractLsb' 16 4,
        Rm := word.extractLsb' 0 4, Rs := word.extractLsb' 8 4, Rn := word.extractLsb' 12 4 }
  | .swi => .swi { cond := condOf word, comment24 := word.extractLsb' 0 24 }
  | .dataProcessing => .dataProcessing
      { cond := condOf word, I := word.getLsbD 25, opc := DpOp.ofBits (word.extractLsb' 21 4), S := word.getLsbD 20,
        Rn := word.extractLsb' 16 4, Rd := word.extractLsb' 12 4,
        op2 := if word.getLsbD 25 then .imm (word.extractLsb' 8 4) (word.extractLsb' 0 8) (immediate word)
               else .reg (shiftedRegOf word) }
  | .singleTransfer => .singleTransfer
      { cond := condOf word, I := word.getLsbD 25, P := word.getLsbD 24, U := word.getLsbD 23, B := word.getLsbD 22,
        W := word.getLsbD 21, L := word.getLsbD 20, Rn := word.extractLsb' 16 4, Rd := word.extractLsb' 12 4,
        offset := if word.getLsbD 25 then .reg (shiftedRegOf word) else .imm12 (word.extractLsb' 0 12) }
  | .blockTransfer => .blockTransfer
      { cond := condOf word, PU := Mode.ofBits (word.extractLsb' 23 2), S := word.getLsbD 22, W := word.getLsbD 21,
        L := word.getLsbD 20, Rn := word.extractLsb' 16 4, list := word.extractLsb' 0 16 }
  | .unknown => .unknown word

/-- The computed target of R57: present for family Branch, and the only part of the `fields` group that reads `addr` (log
entry 7). -/
def computedTarget (fam : Family) (addr word : Word) : Option Word :=
  match fam with
  | .branch => some (target addr word)
  | .multiply | .swi | .dataProcessing | .singleTransfer | .blockTransfer | .unknown => none

/-- `decode(addr, word)` (R136): the outputs, for all inputs and all parameters (R137). -/
def decode (p : Params) (addr word : Word) : Outputs :=
  { family := classify word
    fields := fields (classify word) word
    target := computedTarget (classify word) addr word
    line := line p addr word }

end Sys2Proof.Machine.Block
end

