-- ==== Sys2Proof/Safety.lean ====
section
/-! DEFINITION. The terms statements are made in: what an evaluation that follows its rule answers, what a state that runs
reach keeps, the raw tests as a table, and the output grammar of 30_encoding.md R47. -/

namespace Sys2Proof.Machine

/-- The outcome a renderer's rule describes: the outputs take these values, nothing else changes and nothing is raised
("flags written: none; exceptions: none").  A computed target is given for the branch family only (40_classifier.md R57). -/
def evaluated (s : State) (fam : Family) (f : Fields) (text : Text) (target : Option Word := none) : Result :=
  .next { s with
    family := fam
    fields := f
    target := target
    line := hex8 s.addr ++ " : ".toList ++ hex8 s.word ++ " : ".toList ++ text }

/-- The outputs are the function of the current inputs (10_state.md section 8, 70_reset_and_hazards.md R150). -/
def State.Settled (s : State) : Prop := s.outputs = Block.decode Config.params s.addr s.word

/-- The host has one line per presented word (20_memory.md R23); line number `k` is the line of some word at
`BASE_ADDR +32 4*k` (R21), so the lines are in the order of the addresses (70_reset_and_hazards.md R155); and the last
line is the one on the port. -/
def State.HostConsistent (s : State) : Prop :=
  s.lines.length = s.presented ∧
  (∀ k, k < s.presented → ∃ w, s.lines[k]? = some (Block.line Config.params (streamAddr s.baseAddr k) w)) ∧
  (0 < s.presented → s.addr = streamAddr s.baseAddr (s.presented - 1) ∧ s.lines.getLast? = some s.line)

/-- What every step keeps. -/
def State.Inv (s : State) : Prop := s.Settled ∧ s.HostConsistent

/-- The raw test of a family (40_classifier.md R51); Unknown has none. -/
def rawTest (fam : Family) (w : Word) : Bool :=
  match fam with
  | .branch => tBranch w
  | .multiply => tMul w
  | .swi => tSwi w
  | .dataProcessing => tDp w
  | .singleTransfer => tSdt w
  | .blockTransfer => tBdt w
  | .unknown => false

/-- The family when the tests are taken in a given order (40_classifier.md R55). -/
def firstFamily (order : List Family) (w : Word) : Family := (order.find? fun f => rawTest f w).getD .unknown

/-- The longest text of a word's family and form (49_fallback_and_line.md R135). -/
def textBound (p : Params) (w : Word) : Nat :=
  match classify w with
  | .branch => 13
  | .multiply => 22
  | .swi => 14
  | .dataProcessing => 26
  | .singleTransfer => if w.getLsbD 25 then 28 else 16 + p.placeholder.length
  | .blockTransfer => 69
  | .unknown => 8 + p.marker.length

/-! ## The output grammar (R47), one definition per production -/

/-- A set of texts. -/
abbrev Lang := Text → Prop

/-- A literal in double quotes. -/
def Lang.lit (t : Text) : Lang := fun x => x = t

/-- One production after another. -/
def Lang.seq : List Lang → Lang
  | [] => fun x => x = []
  | a :: rest => fun x => ∃ u v, x = u ++ v ∧ a u ∧ Lang.seq rest v

/-- A choice `a | b`. -/
def Lang.alt (a b : Lang) : Lang := fun x => a x ∨ b x

/-- An optional part `[a]`. -/
def Lang.opt (a : Lang) : Lang := fun x => x = [] ∨ a x

/-- A choice of literals. -/
def Lang.oneOf (ts : List String) : Lang := fun x => ∃ t ∈ ts, x = t.toList

def Grammar.hex8 : Lang := fun x => x.length = 8 ∧ ∀ ch ∈ x, ch ∈ "0123456789abcdef".toList

def Grammar.dec : Lang := fun x =>
  x = "0".toList ∨ ∃ d ds, x = d :: ds ∧ d ∈ "123456789".toList ∧ ∀ ch ∈ ds, ch ∈ "0123456789".toList

def Grammar.reg : Lang :=
  .oneOf ["r0", "r1", "r2", "r3", "r4", "r5", "r6", "r7", "r8", "r9", "r10", "r11", "r12", "r13", "r14", "r15"]

def Grammar.cond : Lang :=
  .oneOf ["", "eq", "ne", "cs", "cc", "mi", "pl", "vs", "vc", "hi", "ls", "ge", "lt", "gt", "le", "nv"]

def Grammar.shift : Lang := .oneOf ["lsl", "lsr", "asr", "ror"]

def Grammar.mode : Lang := .oneOf ["da", "ia", "db", "ib"]

def Grammar.shreg : Lang :=
  .seq [.oneOf [","], Grammar.reg,
    .opt (.seq [.oneOf [" "], Grammar.shift, .oneOf [" "], .alt Grammar.reg Grammar.dec])]

def Grammar.op2 : Lang := .alt (.seq [.oneOf [","], Grammar.dec]) Grammar.shreg

def Grammar.branch : Lang := .seq [.oneOf ["b", "bl"], Grammar.cond, .oneOf [" "], Grammar.hex8]

def Grammar.multiply : Lang :=
  .alt
    (.seq [.oneOf ["mul"], Grammar.cond, .opt (.oneOf ["s"]), .oneOf [" "], Grammar.reg, .oneOf [","], Grammar.reg,
      .oneOf [","], Grammar.reg])
    (.seq [.oneOf ["mla"], Grammar.cond, .opt (.oneOf ["s"]), .oneOf [" "], Grammar.reg, .oneOf [","], Grammar.reg,
      .oneOf [","], Grammar.reg, .oneOf [","], Grammar.reg])

def Grammar.swi : Lang := .seq [.oneOf ["swi"], Grammar.cond, .oneOf [" "], Grammar.dec]

def Grammar.dp : Lang :=
  .alt
    (.seq [.oneOf ["and", "eor", "sub", "rsb", "add", "adc", "sbc", "rsc", "orr", "bic"], Grammar.cond,
      .opt (.oneOf ["s"]), .oneOf [" "], Grammar.reg, .oneOf [","], Grammar.reg, Grammar.op2])
    (.alt
      (.seq [.oneOf ["tst", "teq", "cmp", "cmn"], Grammar.cond, .opt (.oneOf ["p"]), .oneOf [" "], Grammar.reg,
        Grammar.op2])
      (.seq [.oneOf ["mov", "mvn"], Grammar.cond, .opt (.oneOf ["s"]), .oneOf [" "], Grammar.reg, Grammar.op2]))

def Grammar.sdt (p : Params) : Lang :=
  .seq [.oneOf ["ldr", "str"], Grammar.cond, .opt (.oneOf ["b"]), .oneOf [" "], Grammar.reg, .oneOf [",["], Grammar.reg,
    .alt Grammar.shreg (.lit p.placeholder), .oneOf ["]"]]

/-- `[ reg {"," reg} ]`. -/
def Grammar.regs : Lang := fun x =>
  ∃ names : List Text, (∀ t ∈ names, Grammar.reg t) ∧ x = List.intercalate ",".toList names

def Grammar.bdt : Lang :=
  .seq [.oneOf ["ldm", "stm"], Grammar.cond, Grammar.mode, .oneOf [" "], Grammar.reg, .opt (.oneOf ["!"]), .oneOf [","],
    .lit [lbrace], Grammar.regs, .lit [rbrace], .opt (.oneOf ["^"])]

def Grammar.raw (p : Params) : Lang := .seq [.lit p.marker, Grammar.hex8]

def Grammar.text (p : Params) : Lang := fun x =>
  Grammar.branch x ∨ Grammar.multiply x ∨ Grammar.swi x ∨ Grammar.dp x ∨ Grammar.sdt p x ∨ Grammar.bdt x ∨
    Grammar.raw p x

def Grammar.line (p : Params) : Lang :=
  .seq [Grammar.hex8, .oneOf [" : "], Grammar.hex8, .oneOf [" : "], Grammar.text p]

end Sys2Proof.Machine
end

