-- ==== Sys2Proof/Certificates/Slice0/Obligations.lean ====
section
/-! DEFINITION. The statements for the provers.  `evaluated s fam f text` (Safety.lean) is a next state in which the
outputs are `fam`, `f` without a computed target, and the line of `text`, and every other field is as in `s`; a last
argument `some target` is the computed target of a branch (40_classifier.md R57, log entry 7). -/

open Sys2Proof Sys2Proof.Machine

/-! ## What each instruction does, on its operands: every state, every operand, a next state -/

/-- 42_branch.md, `b` and `bl`: the text is mnemonic, condition, space and the target `addr + 8 + 4*offset` modulo 2^32
(92_eei_decisions.md D2) in hex; nothing else changes.  That the computed target stands on a wire of its own beside the
extracted fields is the model's choice, log entry 7. -/
def Obligations.BranchInstructionsRender : Prop :=
  ∀ (c : Cond) (off24 : BitVec 24) (s : State),
    let target : Word := s.addr + 8 + (off24.signExtend 32 <<< 2)
    exec (.b c off24) s = evaluated s .branch (.branch { cond := c, L := false, off24 := off24 })
      ("b".toList ++ condText c ++ " ".toList ++ hex8 target) (some target) ∧
    exec (.bl c off24) s = evaluated s .branch (.branch { cond := c, L := true, off24 := off24 })
      ("bl".toList ++ condText c ++ " ".toList ++ hex8 target) (some target)

/-- 43_multiply.md, `mul` and `mla`: destination, operand 1, operand 2 and, for `mla`, the accumulate register. -/
def Obligations.MultiplyInstructionsRender : Prop :=
  ∀ (c : Cond) (sf : Bool) (rd rn rs rm : Reg) (s : State),
    exec (.mul c sf rd rn rs rm) s = evaluated s .multiply
      (.multiply { cond := c, A := false, S := sf, Rd := rd, Rm := rm, Rs := rs, Rn := rn })
      ("mul".toList ++ condText c ++ (if sf then "s" else "").toList ++ " ".toList ++ reg rd ++ ",".toList ++ reg rm ++
        ",".toList ++ reg rs) ∧
    exec (.mla c sf rd rn rs rm) s = evaluated s .multiply
      (.multiply { cond := c, A := true, S := sf, Rd := rd, Rm := rm, Rs := rs, Rn := rn })
      ("mla".toList ++ condText c ++ (if sf then "s" else "").toList ++ " ".toList ++ reg rd ++ ",".toList ++ reg rm ++
        ",".toList ++ reg rs ++ ",".toList ++ reg rn)

/-- 44_swi.md, `swi`: the comment in unsigned decimal; no interrupt is raised. -/
def Obligations.SwiInstructionRenders : Prop :=
  ∀ (c : Cond) (comment24 : BitVec 24) (s : State),
    exec (.swi c comment24) s = evaluated s .swi (.swi { cond := c, comment24 := comment24 })
      ("swi".toList ++ condText c ++ " ".toList ++ dec (comment24.zeroExtend 32))

/-- 45_data_processing.md class A, register form: `<name><cond>[s] rD,rN` and the shifted register. -/
def Obligations.TwoOperandRegisterFormsRender : Prop :=
  ∀ (c : Cond) (sf : Bool) (rn rd : Reg) (o : ShiftedReg) (s : State),
    let out (op : DpOp) (name : String) : Result := evaluated s .dataProcessing
      (.dataProcessing { cond := c, I := false, opc := op, S := sf, Rn := rn, Rd := rd, op2 := .reg o })
      (name.toList ++ condText c ++ (if sf then "s" else "").toList ++ " ".toList ++ reg rd ++ ",".toList ++
        reg rn ++ shreg o)
    exec (.andR c sf rn rd o) s = out .and "and" ∧
    exec (.eorR c sf rn rd o) s = out .eor "eor" ∧
    exec (.subR c sf rn rd o) s = out .sub "sub" ∧
    exec (.rsbR c sf rn rd o) s = out .rsb "rsb" ∧
    exec (.addR c sf rn rd o) s = out .add "add" ∧
    exec (.adcR c sf rn rd o) s = out .adc "adc" ∧
    exec (.sbcR c sf rn rd o) s = out .sbc "sbc" ∧
    exec (.rscR c sf rn rd o) s = out .rsc "rsc" ∧
    exec (.orrR c sf rn rd o) s = out .orr "orr" ∧
    exec (.bicR c sf rn rd o) s = out .bic "bic"

/-- 45_data_processing.md class A, immediate form: the value is the byte rotated LEFT by twice the rotate field
(90_conflicts.md C4, 92_eei_decisions.md D4). -/
def Obligations.TwoOperandImmediateFormsRender : Prop :=
  ∀ (c : Cond) (sf : Bool) (rn rd : Reg) (o : RotImm) (s : State),
    let value : Word := (o.imm8.zeroExtend 32).rotateLeft (2 * o.rot.toNat)
    let out (op : DpOp) (name : String) : Result := evaluated s .dataProcessing
      (.dataProcessing { cond := c, I := true, opc := op, S := sf, Rn := rn, Rd := rd, op2 := .imm o.rot o.imm8 value })
      (name.toList ++ condText c ++ (if sf then "s" else "").toList ++ " ".toList ++ reg rd ++ ",".toList ++
        reg rn ++ (",".toList ++ dec value))
    exec (.andI c sf rn rd o) s = out .and "and" ∧
    exec (.eorI c sf rn rd o) s = out .eor "eor" ∧
    exec (.subI c sf rn rd o) s = out .sub "sub" ∧
    exec (.rsbI c sf rn rd o) s = out .rsb "rsb" ∧
    exec (.addI c sf rn rd o) s = out .add "add" ∧
    exec (.adcI c sf rn rd o) s = out .adc "adc" ∧
    exec (.sbcI c sf rn rd o) s = out .sbc "sbc" ∧
    exec (.rscI c sf rn rd o) s = out .rsc "rsc" ∧
    exec (.orrI c sf rn rd o) s = out .orr "orr" ∧
    exec (.bicI c sf rn rd o) s = out .bic "bic"

/-- 45_data_processing.md class B, register form: `p` exactly when the destination field is 15, after the condition
(92_eei_decisions.md D3); the set-flags bit is not printed (D18). -/
def Obligations.ComparisonRegisterFormsRender : Prop :=
  ∀ (c : Cond) (sf : Bool) (rn rd : Reg) (o : ShiftedReg) (s : State),
    let out (op : DpOp) (name : String) : Result := evaluated s .dataProcessing
      (.dataProcessing { cond := c, I := false, opc := op, S := sf, Rn := rn, Rd := rd, op2 := .reg o })
      (name.toList ++ condText c ++ (if rd = 15 then "p" else "").toList ++ " ".toList ++ reg rn ++ shreg o)
    exec (.tstR c sf rn rd o) s = out .tst "tst" ∧
    exec (.teqR c sf rn rd o) s = out .teq "teq" ∧
    exec (.cmpR c sf rn rd o) s = out .cmp "cmp" ∧
    exec (.cmnR c sf rn rd o) s = out .cmn "cmn"

/-- 45_data_processing.md class B, immediate form (90_conflicts.md C4, 92_eei_decisions.md D3, D18). -/
def Obligations.ComparisonImmediateFormsRender : Prop :=
  ∀ (c : Cond) (sf : Bool) (rn rd : Reg) (o : RotImm) (s : State),
    let value : Word := (o.imm8.zeroExtend 32).rotateLeft (2 * o.rot.toNat)
    let out (op : DpOp) (name : String) : Result := evaluated s .dataProcessing
      (.dataProcessing { cond := c, I := true, opc := op, S := sf, Rn := rn, Rd := rd, op2 := .imm o.rot o.imm8 value })
      (name.toList ++ condText c ++ (if rd = 15 then "p" else "").toList ++ " ".toList ++ reg rn ++ (",".toList ++ dec value))
    exec (.tstI c sf rn rd o) s = out .tst "tst" ∧
    exec (.teqI c sf rn rd o) s = out .teq "teq" ∧
    exec (.cmpI c sf rn rd o) s = out .cmp "cmp" ∧
    exec (.cmnI c sf rn rd o) s = out .cmn "cmn"

/-- 45_data_processing.md class C, register form: the first-operand field is not printed. -/
def Obligations.SingleDestinationRegisterFormsRender : Prop :=
  ∀ (c : Cond) (sf : Bool) (rn rd : Reg) (o : ShiftedReg) (s : State),
    let out (op : DpOp) (name : String) : Result := evaluated s .dataProcessing
      (.dataProcessing { cond := c, I := false, opc := op, S := sf, Rn := rn, Rd := rd, op2 := .reg o })
      (name.toList ++ condText c ++ (if sf then "s" else "").toList ++ " ".toList ++ reg rd ++ shreg o)
    exec (.movR c sf rn rd o) s = out .mov "mov" ∧
    exec (.mvnR c sf rn rd o) s = out .mvn "mvn"

/-- 45_data_processing.md class C, immediate form (90_conflicts.md C4). -/
def Obligations.SingleDestinationImmediateFormsRender : Prop :=
  ∀ (c : Cond) (sf : Bool) (rn rd : Reg) (o : RotImm) (s : State),
    let value : Word := (o.imm8.zeroExtend 32).rotateLeft (2 * o.rot.toNat)
    let out (op : DpOp) (name : String) : Result := evaluated s .dataProcessing
      (.dataProcessing { cond := c, I := true, opc := op, S := sf, Rn := rn, Rd := rd, op2 := .imm o.rot o.imm8 value })
      (name.toList ++ condText c ++ (if sf then "s" else "").toList ++ " ".toList ++ reg rd ++ (",".toList ++ dec value))
    exec (.movI c sf rn rd o) s = out .mov "mov" ∧
    exec (.mvnI c sf rn rd o) s = out .mvn "mvn"

/-- 47_single_data_transfer.md, `ldr` and `str`, both forms: the register form prints the shifted register, the immediate
form prints the placeholder for every `imm12`; `P`, `U` and `W` reach no text. -/
def Obligations.SingleTransferFormsRender : Prop :=
  ∀ (c : Cond) (t : TransferBits) (rn rd : Reg) (imm12 : BitVec 12) (o : ShiftedReg) (s : State),
    let out (name : String) (load isReg : Bool) (off : Offset) (offText : Text) : Result :=
      evaluated s .singleTransfer
        (.singleTransfer { cond := c, I := isReg, P := t.P, U := t.U, B := t.B, W := t.W, L := load, Rn := rn, Rd := rd,
                           offset := off })
        (name.toList ++ condText c ++ (if t.B then "b" else "").toList ++ " ".toList ++ reg rd ++ ",[".toList ++ reg rn ++
          offText ++ "]".toList)
    exec (.strI c t rn rd imm12) s = out "str" false false (.imm12 imm12) Config.params.placeholder ∧
    exec (.ldrI c t rn rd imm12) s = out "ldr" true false (.imm12 imm12) Config.params.placeholder ∧
    exec (.strR c t rn rd o) s = out "str" false true (.reg o) (shreg o) ∧
    exec (.ldrR c t rn rd o) s = out "ldr" true true (.reg o) (shreg o)

/-- 48_block_data_transfer.md, `ldm` and `stm` in the four modes: mode after the condition, `!` after the base, the list in
braces, `^` last (separators: 92_eei_decisions.md D8). -/
def Obligations.BlockTransferFormsRender : Prop :=
  ∀ (c : Cond) (sf wb : Bool) (rn : Reg) (list : BitVec 16) (s : State),
    let out (name : String) (load : Bool) (m : Mode) (suffix : String) : Result := evaluated s .blockTransfer
      (.blockTransfer { cond := c, PU := m, S := sf, W := wb, L := load, Rn := rn, list := list })
      (name.toList ++ condText c ++ suffix.toList ++ " ".toList ++ reg rn ++ (if wb then "!" else "").toList ++
        ",".toList ++ [Char.ofNat 0x7b] ++ reglist list ++ [Char.ofNat 0x7d] ++ (if sf then "^" else "").toList)
    exec (.stmda c sf wb rn list) s = out "stm" false .da "da" ∧
    exec (.stmia c sf wb rn list) s = out "stm" false .ia "ia" ∧
    exec (.stmdb c sf wb rn list) s = out "stm" false .db "db" ∧
    exec (.stmib c sf wb rn list) s = out "stm" false .ib "ib" ∧
    exec (.ldmda c sf wb rn list) s = out "ldm" true .da "da" ∧
    exec (.ldmia c sf wb rn list) s = out "ldm" true .ia "ia" ∧
    exec (.ldmdb c sf wb rn list) s = out "ldm" true .db "db" ∧
    exec (.ldmib c sf wb rn list) s = out "ldm" true .ib "ib"

/-- 49_fallback_and_line.md, the raw word: the marker and the eight digits of the word, no condition, no operand. -/
def Obligations.RawWordsRender : Prop :=
  ∀ (w : Word) (s : State),
    exec (.rawHigh6 w) s = evaluated s .unknown (.unknown w) (Config.params.marker ++ hex8 w) ∧
    exec (.rawHigh7 w) s = evaluated s .unknown (.unknown w) (Config.params.marker ++ hex8 w)

/-! ## What a word prints, on its bits: encoding and text of each rule together -/

/-- 42_branch.md R70 to R72 on the bits of the word; the sum modulo 2^32 is 92_eei_decisions.md D2, the wire of
the computed target log entry 7 (the model's choice). -/
def Obligations.BranchWordsPrintTarget : Prop :=
  ∀ s : State,
    let w := s.word
    let target : Word := s.addr + 8 + ((w.extractLsb' 0 24).signExtend 32 <<< 2)
    let out (l : Bool) (name : String) : Result := evaluated s .branch
      (.branch { cond := condOf w, L := l, off24 := w.extractLsb' 0 24 })
      (name.toList ++ condText (condOf w) ++ " ".toList ++ hex8 target) (some target)
    (w &&& 0x0f000000 = 0x0a000000 → exec (decode w) s = out false "b") ∧
    (w &&& 0x0f000000 = 0x0b000000 → exec (decode w) s = out true "bl")

/-- R75, R76, R77 on the bits of the word. -/
def Obligations.MultiplyWordsPrintRegisters : Prop :=
  ∀ s : State,
    let w := s.word
    let out (name : String) (last : Text) (r : Result) : Prop := ∃ f, r = evaluated s .multiply f
      (name.toList ++ condText (condOf w) ++ (if w.getLsbD 20 then "s" else "").toList ++ " ".toList ++
        reg (w.extractLsb' 16 4) ++ ",".toList ++ reg (w.extractLsb' 0 4) ++ ",".toList ++ reg (w.extractLsb' 8 4) ++ last)
    (w &&& 0x0fe000f0 = 0x00000090 → out "mul" [] (exec (decode w) s)) ∧
    (w &&& 0x0fe000f0 = 0x00200090 → out "mla" (",".toList ++ reg (w.extractLsb' 12 4)) (exec (decode w) s))

/-- R80 on the bits of the word. -/
def Obligations.SwiWordsPrintComment : Prop :=
  ∀ s : State, s.word &&& 0x0f000000 = 0x0f000000 →
    ∃ f, exec (decode s.word) s = evaluated s .swi f
      ("swi".toList ++ condText (condOf s.word) ++ " ".toList ++ dec ((s.word.extractLsb' 0 24).zeroExtend 32))

/-- 45_data_processing.md section 2 on the bits of the word, both forms; the Multiply words are not data processing.
The rotate direction is 90_conflicts.md C4. -/
def Obligations.TwoOperandWordsPrint : Prop :=
  ∀ (s : State) (row : BitVec 4 × String), row ∈ ([(0, "and"), (1, "eor"), (2, "sub"), (3, "rsb"), (4, "add"), (5, "adc"), (6, "sbc"), (7, "rsc"), (12, "orr"), (14, "bic")] : List (BitVec 4 × String)) →
    let w := s.word
    let rn := w.extractLsb' 16 4
    let rd := w.extractLsb' 12 4
    let value : Word := ((w.extractLsb' 0 8).zeroExtend 32).rotateLeft (2 * (w.extractLsb' 8 4).toNat)
    let out (op2 : Operand2) (isImm : Bool) (op2Text : Text) : Result := evaluated s .dataProcessing
      (.dataProcessing { cond := condOf w, I := isImm, opc := DpOp.ofBits row.1, S := w.getLsbD 20, Rn := rn, Rd := rd,
                         op2 := op2 })
      (row.2.toList ++ condText (condOf w) ++ (if w.getLsbD 20 then "s" else "").toList ++ " ".toList ++ reg rd ++
        ",".toList ++ reg rn ++ op2Text)
    (w &&& 0x0fe00000 = 0x02000000 ||| (row.1.zeroExtend 32 <<< 21) →
      exec (decode w) s = out (.imm (w.extractLsb' 8 4) (w.extractLsb' 0 8) value) true (",".toList ++ dec value)) ∧
    (w &&& 0x0fe00000 = row.1.zeroExtend 32 <<< 21 → w &&& 0x0fc000f0 ≠ 0x00000090 →
      exec (decode w) s = out (.reg (shiftedRegOf w)) false (shreg (shiftedRegOf w)))

/-- 45_data_processing.md section 3 on the bits of the word, both forms (90_conflicts.md C4, 92_eei_decisions.md D3, D18). -/
def Obligations.ComparisonWordsPrint : Prop :=
  ∀ (s : State) (row : BitVec 4 × String), row ∈ ([(8, "tst"), (9, "teq"), (10, "cmp"), (11, "cmn")] : List (BitVec 4 × String)) →
    let w := s.word
    let rn := w.extractLsb' 16 4
    let rd := w.extractLsb' 12 4
    let value : Word := ((w.extractLsb' 0 8).zeroExtend 32).rotateLeft (2 * (w.extractLsb' 8 4).toNat)
    let out (op2 : Operand2) (isImm : Bool) (op2Text : Text) : Result := evaluated s .dataProcessing
      (.dataProcessing { cond := condOf w, I := isImm, opc := DpOp.ofBits row.1, S := w.getLsbD 20, Rn := rn, Rd := rd,
                         op2 := op2 })
      (row.2.toList ++ condText (condOf w) ++ (if rd = 15 then "p" else "").toList ++ " ".toList ++ reg rn ++ op2Text)
    (w &&& 0x0fe00000 = 0x02000000 ||| (row.1.zeroExtend 32 <<< 21) →
      exec (decode w) s = out (.imm (w.extractLsb' 8 4) (w.extractLsb' 0 8) value) true (",".toList ++ dec value)) ∧
    (w &&& 0x0fe00000 = row.1.zeroExtend 32 <<< 21 → w &&& 0x0fc000f0 ≠ 0x00000090 →
      exec (decode w) s = out (.reg (shiftedRegOf w)) false (shreg (shiftedRegOf w)))

/-- 45_data_processing.md section 4 on the bits of the word, both forms (90_conflicts.md C4). -/
def Obligations.SingleDestinationWordsPrint : Prop :=
  ∀ (s : State) (row : BitVec 4 × String), row ∈ ([(13, "mov"), (15, "mvn")] : List (BitVec 4 × String)) →
    let w := s.word
    let rn := w.extractLsb' 16 4
    let rd := w.extractLsb' 12 4
    let value : Word := ((w.extractLsb' 0 8).zeroExtend 32).rotateLeft (2 * (w.extractLsb' 8 4).toNat)
    let out (op2 : Operand2) (isImm : Bool) (op2Text : Text) : Result := evaluated s .dataProcessing
      (.dataProcessing { cond := condOf w, I := isImm, opc := DpOp.ofBits row.1, S := w.getLsbD 20, Rn := rn, Rd := rd,
                         op2 := op2 })
      (row.2.toList ++ condText (condOf w) ++ (if w.getLsbD 20 then "s" else "").toList ++ " ".toList ++ reg rd ++ op2Text)
    (w &&& 0x0fe00000 = 0x02000000 ||| (row.1.zeroExtend 32 <<< 21) →
      exec (decode w) s = out (.imm (w.extractLsb' 8 4) (w.extractLsb' 0 8) value) true (",".toList ++ dec value)) ∧
    (w &&& 0x0fe00000 = row.1.zeroExtend 32 <<< 21 → w &&& 0x0fc000f0 ≠ 0x00000090 →
      exec (decode w) s = out (.reg (shiftedRegOf w)) false (shreg (shiftedRegOf w)))

/-- R115, R116, R117 on the bits of the word, both forms. -/
def Obligations.SingleTransferWordsPrint : Prop :=
  ∀ s : State,
    let w := s.word
    let out (name : String) (offText : Text) (r : Result) : Prop := ∃ f, r = evaluated s .singleTransfer f
      (name.toList ++ condText (condOf w) ++ (if w.getLsbD 22 then "b" else "").toList ++ " ".toList ++
        reg (w.extractLsb' 12 4) ++ ",[".toList ++ reg (w.extractLsb' 16 4) ++ offText ++ "]".toList)
    (w &&& 0x0e100000 = 0x04000000 → out "str" Config.params.placeholder (exec (decode w) s)) ∧
    (w &&& 0x0e100000 = 0x04100000 → out "ldr" Config.params.placeholder (exec (decode w) s)) ∧
    (w &&& 0x0e100000 = 0x06000000 → out "str" (shreg (shiftedRegOf w)) (exec (decode w) s)) ∧
    (w &&& 0x0e100000 = 0x06100000 → out "ldr" (shreg (shiftedRegOf w)) (exec (decode w) s))

/-- 48_block_data_transfer.md on the bits of the word (separators: 92_eei_decisions.md D8). -/
def Obligations.BlockTransferWordsPrint : Prop :=
  ∀ (s : State) (row : Word × String × String), row ∈
    ([(0x08000000, "stm", "da"), (0x08800000, "stm", "ia"), (0x09000000, "stm", "db"), (0x09800000, "stm", "ib"),
      (0x08100000, "ldm", "da"), (0x08900000, "ldm", "ia"), (0x09100000, "ldm", "db"), (0x09900000, "ldm", "ib")] :
      List (Word × String × String)) →
    let w := s.word
    w &&& 0x0f900000 = row.1 →
    ∃ f, exec (decode w) s = evaluated s .blockTransfer f
      (row.2.1.toList ++ condText (condOf w) ++ row.2.2.toList ++ " ".toList ++ reg (w.extractLsb' 16 4) ++
        (if w.getLsbD 21 then "!" else "").toList ++ ",".toList ++ [Char.ofNat 0x7b] ++ reglist (w.extractLsb' 0 16) ++
        [Char.ofNat 0x7d] ++ (if w.getLsbD 22 then "^" else "").toList)

/-- R131 and R81: the words of format X print the marker and the word, as family Unknown, and every other word evaluates to
another family. -/
def Obligations.UnknownWordsPrintMarker : Prop :=
  ∀ s : State,
    (classify s.word = .unknown ↔ s.word &&& 0x0e000000 = 0x0c000000 ∨ s.word &&& 0x0f000000 = 0x0e000000) ∧
    (s.word &&& 0x0e000000 = 0x0c000000 ∨ s.word &&& 0x0f000000 = 0x0e000000 →
      ∃ f, exec (decode s.word) s = evaluated s .unknown f (Config.params.marker ++ hex8 s.word)) ∧
    (¬ (s.word &&& 0x0e000000 = 0x0c000000 ∨ s.word &&& 0x0f000000 = 0x0e000000) →
      ∃ t, exec (decode s.word) s = .next t ∧ t.family ≠ .unknown)

/-! ## The classifier -/

/-- R51 in its mask forms, and R52: the first test that holds, in the fixed order. -/
def Obligations.ClassifierTakesFirstTest : Prop :=
  ∀ w : Word, classify w =
    if w &&& 0x0e000000 = 0x0a000000 then .branch
    else if w &&& 0x0fc000f0 = 0x00000090 then .multiply
    else if w &&& 0x0f000000 = 0x0f000000 then .swi
    else if w.extractLsb' 26 2 = 0b00 then .dataProcessing
    else if w.extractLsb' 26 2 = 0b01 then .singleTransfer
    else if w.extractLsb' 25 3 = 0b100 then .blockTransfer
    else .unknown

/-- 40_classifier.md section 3, the closed form by `word[27:25]` (a table the spec derives from R51 and R52). -/
def Obligations.ClassifierClosedForm : Prop :=
  ∀ w : Word, classify w =
    match (w.extractLsb' 25 3).toNat with
    | 0 => if w.extractLsb' 22 3 = 0b000 ∧ w.extractLsb' 4 4 = 0b1001 then .multiply else .dataProcessing
    | 1 => .dataProcessing
    | 2 => .singleTransfer
    | 3 => .singleTransfer
    | 4 => .blockTransfer
    | 5 => .branch
    | 6 => .unknown
    | _ => if w.getLsbD 24 then .swi else .unknown

/-- 40_classifier.md section 3: two different raw tests hold together exactly for Multiply and DataProcessing, and
exactly on the Multiply words (derived in the spec; 90_conflicts.md C3). -/
def Obligations.MultiplyIsTheOnlyOverlap : Prop :=
  ∀ w : Word,
    (∀ f g : Family, rawTest f w = true → rawTest g w = true →
      f = g ∨ (f = .multiply ∧ g = .dataProcessing) ∨ (f = .dataProcessing ∧ g = .multiply)) ∧
    (rawTest .multiply w = true → rawTest .dataProcessing w = true) ∧
    (classify w = .multiply ↔ rawTest .multiply w = true ∧ rawTest .dataProcessing w = true)

/-- 40_classifier.md section 3 (the spec derives it): every order of the six tests that takes Multiply before
DataProcessing gives the same families, and every order that takes DataProcessing first gives a Multiply word to
DataProcessing, where it is the register form of `and` or `eor`. -/
def Obligations.OnlyMultiplyBeforeDataProcessingMatters : Prop :=
  ∀ order : List Family,
    order.Perm [.branch, .multiply, .swi, .dataProcessing, .singleTransfer, .blockTransfer] →
    (order.idxOf .multiply < order.idxOf .dataProcessing → ∀ w, firstFamily order w = classify w) ∧
    (order.idxOf .dataProcessing < order.idxOf .multiply → ∀ w, tMul w = true →
      firstFamily order w = .dataProcessing ∧
      ∃ c sf rn rd o, decodeDp w = .andR c sf rn rd o ∨ decodeDp w = .eorR c sf rn rd o)

/-- R46: the condition field takes no part in the classification, and with the value 15 the mnemonic of every family but
Unknown carries the suffix `nv`. -/
def Obligations.ConditionDoesNotAffectFamily : Prop :=
  (∀ (c : BitVec 4) (w : Word), classify (w &&& 0x0fffffff ||| (c.zeroExtend 32 <<< 28)) = classify w) ∧
  (∀ s : State, s.word.extractLsb' 28 4 = 15 → classify s.word ≠ .unknown →
    ∃ t, exec (decode s.word) s = .next t ∧ t.family = classify s.word ∧
      ∃ name ∈ ["b", "bl", "mul", "mla", "swi", "and", "eor", "sub", "rsb", "add", "adc", "sbc", "rsc", "tst", "teq", "cmp",
        "cmn", "orr", "mov", "bic", "mvn", "ldr", "str", "ldm", "stm"],
        ∃ rest, t.line.drop 22 = name.toList ++ "nv".toList ++ rest)

/-! ## Decode and encode -/

/-- Decoding the encoding of a well-formed instruction gives it back, every operand with it. -/
def Obligations.DecodeInvertsEncode : Prop :=
  ∀ i : Instr, i.wf = true → decode (encode i) = i

/-- Every word decodes to a well-formed instruction whose encoding is that word: no bit of a word is dropped, the ignored
bits among them. -/
def Obligations.EncodeInvertsDecode : Prop :=
  ∀ w : Word, (decode w).wf = true ∧ encode (decode w) = w

/-- 30_encoding.md section 4, the reading rule of the opcode table: the row of the decoded instruction is the matching
row of smallest priority, and another row matches only where a Multiply word also matches `and` or `eor`. -/
def Obligations.DecodedRowHasSmallestPriority : Prop :=
  ∀ w : Word, ∃ r, opcodeTable[(decode w).rowIndex]? = some r ∧ w &&& r.mask = r.pattern ∧
    ∀ r' ∈ opcodeTable, w &&& r'.mask = r'.pattern →
      r' = r ∨ (r.priority < r'.priority ∧ (r.mnemonic = "mul" ∨ r.mnemonic = "mla") ∧
        (r'.mnemonic = "and" ∨ r'.mnemonic = "eor"))

/-- A few words written out from the format tables decode to the instruction they stand for (95_test_vectors.md). -/
def Obligations.WrittenOutWordsDecode : Prop :=
  decode 0xeafffffe = .b .al 0xfffffe ∧
  decode 0xe0312394 = .mla .al true 1 2 3 4 ∧
  decode 0xef000011 = .swi .al 17 ∧
  decode 0xe3a00412 = .movI .al false 0 0 ⟨4, 0x12⟩ ∧
  decode 0x10336438 = .eorR .ne true 3 6 ⟨4, false, .lsr, true, 8⟩ ∧
  decode 0xe7d10002 = .ldrR .al ⟨true, true, true, false⟩ 1 0 ⟨0, false, .lsl, false, 2⟩ ∧
  decode 0xe8bd8009 = .ldmia .al false true 13 0x8009 ∧
  decode 0xee123456 = .rawHigh7 0xee123456

/-! ## Text primitives and operands -/

/-- 41_condition_and_text.md section 1: the suffix of each of the 16 condition values (index order:
92_eei_decisions.md D11). -/
def Obligations.ConditionSuffixes : Prop :=
  (List.range 16).map (fun c => String.ofList (condText (Cond.ofBits (BitVec.ofNat 4 c)))) =
    ["eq", "ne", "cs", "cc", "mi", "pl", "vs", "vc", "hi", "ls", "ge", "lt", "gt", "le", "", "nv"]

/-- R15, R16, R17: the three other name tables, by index. -/
def Obligations.MnemonicShiftAndModeNames : Prop :=
  (List.range 16).map (fun k => String.ofList (dpName (DpOp.ofBits (BitVec.ofNat 4 k)))) =
    ["and", "eor", "sub", "rsb", "add", "adc", "sbc", "rsc", "tst", "teq", "cmp", "cmn", "orr", "mov", "bic", "mvn"] ∧
  (List.range 4).map (fun k => String.ofList (shiftName (Shift.ofBits (BitVec.ofNat 2 k)))) = ["lsl", "lsr", "asr", "ror"] ∧
  (List.range 4).map (fun k => String.ofList (modeName (Mode.ofBits (BitVec.ofNat 2 k)))) = ["da", "ia", "db", "ib"]

/-- R62: exactly eight characters, each one of `0123456789abcdef`, whose value read in base 16 is the number. -/
def Obligations.Hex8IsTheHexNumeral : Prop :=
  ∀ v : Word, (hex8 v).length = 8 ∧ (∀ ch ∈ hex8 v, ch ∈ "0123456789abcdef".toList) ∧
    (hex8 v).foldl (fun n ch => 16 * n + "0123456789abcdef".toList.idxOf ch) 0 = v.toNat

/-- 41_condition_and_text.md section 3: the decimal numeral, digits only, no leading zero (92_eei_decisions.md D10), `0`
for zero, at most ten characters, and read in base 10 it is the number. -/
def Obligations.DecIsTheDecimalNumeral : Prop :=
  ∀ v : Word, (∀ ch ∈ dec v, ch ∈ "0123456789".toList) ∧
    (dec v).foldl (fun n ch => 10 * n + "0123456789".toList.idxOf ch) 0 = v.toNat ∧
    ((dec v).head? = some '0' ↔ v = 0) ∧ (v = 0 → dec v = "0".toList) ∧ (dec v).length ≤ 10

/-- R64 and R11: the sixteen register names, no alias. -/
def Obligations.RegisterNames : Prop :=
  (List.range 16).map (fun n => String.ofList (reg (BitVec.ofNat 4 n))) =
    ["r0", "r1", "r2", "r3", "r4", "r5", "r6", "r7", "r8", "r9", "r10", "r11", "r12", "r13", "r14", "r15"]

/-- 46_shifted_operand.md on the low 12 bits of a word: the shift is printed exactly when bits 11 to 4 are not all zero, with
a register amount when bit 4 is set and otherwise the number of bits 11:8 in DECIMAL, which the spec marks as its own
choice (92_eei_decisions.md D5, log entry 9). -/
def Obligations.ShiftPrintedExactlyWhenBitsNonzero : Prop :=
  ∀ w : Word,
    (w.extractLsb' 4 8 = 0 → shreg (shiftedRegOf w) = ",".toList ++ reg (w.extractLsb' 0 4)) ∧
    (w.extractLsb' 4 8 ≠ 0 → shreg (shiftedRegOf w) =
      ",".toList ++ reg (w.extractLsb' 0 4) ++ " ".toList ++ shiftName (Shift.ofBits (w.extractLsb' 5 2)) ++ " ".toList ++
        if w.getLsbD 4 then reg (w.extractLsb' 8 4) else dec ((w.extractLsb' 8 4).zeroExtend 32))

/-- 46_shifted_operand.md: bit 7 is not part of the amount, and an encoding that packs a 5-bit amount `n` into bits 11:7
prints `n >> 1` (decimal: 92_eei_decisions.md D5). -/
def Obligations.ShiftAmountIsFourBits : Prop :=
  ∀ w : Word,
    (w.extractLsb' 4 8 ≠ 0 → (w ^^^ 0x80).extractLsb' 4 8 ≠ 0 →
      shreg (shiftedRegOf (w ^^^ 0x80)) = shreg (shiftedRegOf w)) ∧
    (w.extractLsb' 4 8 ≠ 0 → w.getLsbD 4 = false →
      shreg (shiftedRegOf w) = ",".toList ++ reg (w.extractLsb' 0 4) ++ " ".toList ++
        shiftName (Shift.ofBits (w.extractLsb' 5 2)) ++ " ".toList ++ dec ((w.extractLsb' 7 5).zeroExtend 32 >>> 1))

/-- 30_encoding.md section 3: the printed immediate is the shift into a 64-bit accumulator with the overflow folded
back, and the two parts never overlap, so "or" and "add" agree (direction: 90_conflicts.md C4, 92_eei_decisions.md D4). -/
def Obligations.ImmediateIsShiftAndFold : Prop :=
  ∀ o : RotImm,
    let acc : BitVec 64 := o.imm8.zeroExtend 64 <<< (2 * o.rot.toNat)
    imm32 o = acc.extractLsb' 0 32 ||| acc.extractLsb' 32 32 ∧
    imm32 o = acc.extractLsb' 0 32 + acc.extractLsb' 32 32 ∧
    acc.extractLsb' 0 32 &&& acc.extractLsb' 32 32 = 0

/-- 42_branch.md section 1: the target is `A + 8 + 4*sign_extend(O)` modulo 2^32 (92_eei_decisions.md D2), congruent to
the address modulo 4, with the listed values. -/
def Obligations.BranchTargetArithmetic : Prop :=
  ∀ (a : Word) (off24 : BitVec 24),
    ((branchTarget a off24).toNat : Int) = ((a.toNat : Int) + 8 + 4 * off24.toInt) % 2 ^ 32 ∧
    (branchTarget a off24).extractLsb' 0 2 = a.extractLsb' 0 2 ∧
    branchTarget a 0xfffffe = a ∧ branchTarget a 0 = a + 8 ∧
    branchTarget a 0x7fffff = a + 0x02000004 ∧ branchTarget a 0x800000 = a - 0x01fffff8

/-- 48_block_data_transfer.md section 1: the names of exactly the registers whose bit is set, ascending, joined by commas,
no ranges; the empty list prints nothing (92_eei_decisions.md D9). -/
def Obligations.RegisterListAscending : Prop :=
  ∀ list : BitVec 16, ∃ ns : List (Fin 16), ns.Pairwise (· < ·) ∧ (∀ i, i ∈ ns ↔ list.getLsbD i.val = true) ∧
    reglist list = List.intercalate ",".toList (ns.map fun i => reg (BitVec.ofFin i)) ∧
    (list = 0 → reglist list = [])

/-! ## Ignored bits -/

/-- 30_encoding.md section 5: two words that differ only in bits their renderer ignores give the same family and text
(multiply without accumulate, comparisons, single-destination forms). -/
def Obligations.IgnoredBitsChangeNoText : Prop :=
  ∀ s t : State,
    let agree (keep : Word) : Prop := s.word &&& keep = t.word &&& keep
    let same : Prop := ∃ s' t', exec (decode s.word) s = .next s' ∧ exec (decode t.word) t = .next t' ∧
      s'.family = t'.family ∧ s'.line.drop 22 = t'.line.drop 22
    (s.word &&& 0x0fe000f0 = 0x00000090 → agree 0xffff0fff → same) ∧
    (s.word &&& 0x0d800000 = 0x01000000 → agree 0xffef0fff → s.word.extractLsb' 12 4 ≠ 15 → t.word.extractLsb' 12 4 ≠ 15 →
      same) ∧
    (s.word &&& 0x0d800000 = 0x01000000 → agree 0xffefffff → same) ∧
    (s.word &&& 0x0da00000 = 0x01a00000 → agree 0xfff0ffff → same)

/-- R119: `P`, `U` and `W` of a single data transfer do not affect the text, and in the immediate form neither does
`word[11:0]`. -/
def Obligations.TransferOptionBitsNotRendered : Prop :=
  ∀ s t : State,
    let agree (keep : Word) : Prop := s.word &&& keep = t.word &&& keep
    let same : Prop := ∃ s' t', exec (decode s.word) s = .next s' ∧ exec (decode t.word) t = .next t' ∧
      s'.family = t'.family ∧ s'.line.drop 22 = t'.line.drop 22
    (s.word &&& 0x0c000000 = 0x04000000 → agree 0xfe5fffff → same) ∧
    (s.word &&& 0x0e000000 = 0x04000000 → agree 0xfe5ff000 → same)

/-! ## The line -/

/-- R134: two separators of three characters at places 9 and 20, the text of the multiplexer from character 23 on, no line
terminator and no trailing space. -/
def Obligations.LineLayout : Prop :=
  ∀ s : State, ∃ t, exec (decode s.word) s = .next t ∧
    t.line.take 8 = hex8 s.addr ∧ (t.line.drop 8).take 3 = " : ".toList ∧
    (t.line.drop 11).take 8 = hex8 s.word ∧ (t.line.drop 19).take 3 = " : ".toList ∧
    t.line.drop 22 = Block.text Config.params s.addr s.word ∧
    t.line.getLast?.isSome = true ∧ (∀ ch ∈ t.line.getLast?, ch ≠ ' ' ∧ ch ≠ '\n')

/-- 49_fallback_and_line.md section 2: the longest text of each family and form, the bound of 10_state.md section 7 on
the line, and the shortest line; each bound is reached. -/
def Obligations.LineLengthBounds : Prop :=
  (∀ (p : Params) (addr w : Word),
    (Block.text p addr w).length ≤ textBound p w ∧
    (Block.line p addr w).length ≤ 22 + max (max 69 (16 + p.placeholder.length)) (8 + p.marker.length) ∧
    27 ≤ (Block.line p addr w).length) ∧
  (∀ (p : Params) (addr : Word),
    ∀ w ∈ ([0xfb000000, 0xf03fff9f, 0xffffffff, 0xf01fff1f, 0xf77fff1f, 0xf57ff000, 0xf9ffffff, 0xfc000000] : List Word),
      (Block.text p addr w).length = textBound p w) ∧
  (∀ (p : Params) (addr : Word), (Block.line p addr 0xef000000).length = 27)

/-- 30_encoding.md section 6: the whole-block line of every pair is in the output grammar for every two strings, and so is
the line that every step puts on the port (spacing: 92_eei_decisions.md D8, D12). -/
def Obligations.EveryLineIsInTheGrammar : Prop :=
  (∀ (p : Params) (addr w : Word), Grammar.line p (Block.line p addr w)) ∧
  (∀ s : State, ∃ t, step s = .next t ∧ Grammar.line Config.params t.line)

/-- 41_condition_and_text.md section 5 (92_eei_decisions.md D21): whatever the two strings are, every character a step
puts on the line port is 7-bit ASCII; with the default strings only lowercase letters, digits, space and the listed
punctuation appear. -/
def Obligations.LineCharacters : Prop :=
  (∀ s : State, ∃ t, step s = .next t ∧ ∀ ch ∈ t.line, ch.toNat < 128) ∧
  (∀ addr w : Word, ∀ ch ∈ Block.line Config.vectorParams addr w,
    ch.isLower = true ∨ ch.isDigit = true ∨ ch ∈ " :,[]!^.?".toList ∨ ch.toNat = 0x7b ∨ ch.toNat = 0x7d)

/-! ## The machine as a whole -/

/-- When the next four bytes decode to an instruction, a step is that instruction's meaning in the state where the host
has presented the word and its address, and the host then receives the line. -/
def Obligations.StepRunsDecodedInstruction : Prop :=
  ∀ (s : State) (k : Chunk) (rest : List Chunk) (i : Instr),
    s.stream = k :: rest → decodeBytes [k.b0, k.b1, k.b2, k.b3] = .ok (i, []) → i.wf = true →
    ∃ t, exec i { s with addr := s.baseAddr + 4 * BitVec.ofNat 32 s.presented, word := assemble k,
                         presented := s.presented + 1, stream := rest } = .next t ∧
      step s = .next { t with lines := s.lines ++ [t.line] }

/-- With nothing left to present, the host holds its inputs steady: the step evaluates the same pair again and no line is
received.  THE MODEL'S CHOICE (log entry 5): the spec gives the block no step without a pair. -/
def Obligations.StepWithNothingToPresent : Prop :=
  ∀ s : State, s.stream = [] → ∃ t, exec (decode s.word) s = .next t ∧ step s = .next t ∧
    t.stream = [] ∧ t.lines = s.lines ∧ t.presented = s.presented ∧ t.addr = s.addr ∧ t.word = s.word

/-- R140 and R137: the set of exceptions is empty, and every instruction and every step answers a next state. -/
def Obligations.NothingFaultsOrRefuses : Prop :=
  (Fault → False) ∧ (∀ (i : Instr) (s : State), ∃ t, exec i s = .next t) ∧ (∀ s : State, ∃ t, step s = .next t)

/-- The frame of every instruction: only the outputs may change. -/
def Obligations.InstructionsWriteOnlyTheOutputs : Prop :=
  ∀ (i : Instr) (s : State), ∃ t, exec i s = .next t ∧
    t.baseAddr = s.baseAddr ∧ t.presented = s.presented ∧ t.stream = s.stream ∧ t.lines = s.lines ∧
    t.addr = s.addr ∧ t.word = s.word

/-- R10: an evaluation depends on the pair on the inputs and on nothing else, whatever was evaluated before. -/
def Obligations.OutputsForgetHistory : Prop :=
  ∀ s t : State, s.addr = t.addr → s.word = t.word →
    ∃ s' t', exec (decode s.word) s = .next s' ∧ exec (decode t.word) t = .next t' ∧ s'.outputs = t'.outputs

/-- 49_fallback_and_line.md section 3: what a step puts on the outputs is the whole-block function, written on the bits of
the word, of the pair on the inputs.  Two clauses are THE MODEL'S CHOICE: with an empty queue the pair is the one the host
holds steady (log entry 5), and the branch target that 40_classifier.md section 4 lists among the fields is a wire of its
own, so that `fields` reads the word alone (log entry 7). -/
def Obligations.StepRefinesTheWholeBlock : Prop :=
  ∀ s : State, ∃ t, step s = .next t ∧ t.addr = s.fetch.addr ∧ t.word = s.fetch.word ∧
    t.outputs = Block.decode Config.params s.fetch.addr s.fetch.word

/-- R20: the word a step evaluates is assembled from the next four bytes, most significant byte first. -/
def Obligations.WordIsBigEndian : Prop :=
  ∀ (s : State) (b0 b1 b2 b3 : Byte) (rest : List Chunk), s.stream = ⟨b0, b1, b2, b3⟩ :: rest →
    ∃ t, step s = .next t ∧ t.stream = rest ∧
      t.word = (b0.zeroExtend 32 <<< 24) ||| (b1.zeroExtend 32 <<< 16) ||| (b2.zeroExtend 32 <<< 8) ||| b3.zeroExtend 32

/-- 20_memory.md section 1: the address of word `i` is `BASE_ADDR +32 4*i` (modulo 2^32: 92_eei_decisions.md D2), so two
steps in a row have addresses 4 apart, and each step adds one line at the end.  THE MODEL'S CHOICE: the words are
evaluated in stream order (log entry 2), and the second line comes after the first also where the address wraps (log
entry 8). -/
def Obligations.AddressesStepByFour : Prop :=
  ∀ (s : State) (k k' : Chunk) (rest : List Chunk), s.stream = k :: k' :: rest →
    ∃ t u, step s = .next t ∧ step t = .next u ∧ t.addr = s.baseAddr + 4 * BitVec.ofNat 32 s.presented ∧
      u.addr = t.addr + 4 ∧ t.lines = s.lines ++ [t.line] ∧ u.lines = s.lines ++ [t.line, u.line]

/-- 20_memory.md section 1 and 49_fallback_and_line.md section 3 over a whole stream: from any state, as many steps as
there are chunks leave nothing to present, and the host has received, in order, the line of every word at its address.
THE MODEL'S CHOICE: the words are evaluated in stream order (log entry 2), and the lines keep that order also where the
address wraps (log entry 8). -/
def Obligations.RunRendersTheWholeStream : Prop :=
  ∀ s : State, ∃ t : State, Host.Core.run Sys2Proof.core s.stream.length s = .next t ∧ t.stream = [] ∧
    t.baseAddr = s.baseAddr ∧ t.presented = s.presented + s.stream.length ∧
    t.lines = s.lines ++ s.stream.mapIdx fun n k =>
      Block.line Config.params (s.baseAddr + 4 * BitVec.ofNat 32 (s.presented + n)) (k.b0 ++ k.b1 ++ k.b2 ++ k.b3)

/-- The model's reset (log entry 3) has the invariant, with base 0, nothing presented and no line received. -/
def Obligations.ResetHasTheInvariant : Prop :=
  State.reset.Inv ∧ State.reset.baseAddr = 0 ∧ State.reset.stream = [] ∧ State.reset.lines = []

/-- Every step keeps the invariant: the outputs are the function of the inputs, and the host's lines are those of the
addresses presented, in order.  THE MODEL'S CHOICE in `HostConsistent`: words are evaluated in stream order (log entry 2);
the lines keep that order also where the address wraps (log entry 8); and after the end of the stream the inputs stay as
they are (log entry 5).  The branch target among the outputs is a wire of its own (log entry 7). -/
def Obligations.StepKeepsTheInvariant : Prop :=
  ∀ s t : State, s.Inv → step s = .next t → t.Inv

/-- 49_fallback_and_line.md section 3: another address changes no family and no extracted field; it changes the line only in
its first eight characters and, for Branch, its last eight.  The computed target, which the model carries on a wire of its
own (the model's choice, log entry 7), is the address plus a constant of the instruction for Branch and absent otherwise. -/
def Obligations.AddressReachesOnlyLabelAndTarget : Prop :=
  ∀ (i : Instr) (s : State) (a : Word), ∃ t t', exec i s = .next t ∧ exec i { s with addr := a } = .next t' ∧
    t.family = t'.family ∧ t.fields = t'.fields ∧ t.line.length = t'.line.length ∧
    (t.line.drop 8).take (t.line.length - 16) = (t'.line.drop 8).take (t.line.length - 16) ∧
    (t.family ≠ .branch → t.target = none ∧ t'.target = none ∧ t.line.drop 8 = t'.line.drop 8) ∧
    (t.family = .branch → ∃ d : Word, t.target = some (s.addr + d) ∧ t'.target = some (a + d))
end

