-- ==== Sys2Proof/Laws/Encoding.lean ====
section
/-! SUPPORT. The index numbers of the name tables are a numbering, bytes and words convert back and forth, and the words
of each format carry the fixed bits of its rows. -/

namespace Sys2Proof

@[simp] theorem Cond.ofBits_toBits (c : Cond) : Cond.ofBits c.toBits = c := by cases c <;> rfl
@[simp] theorem DpOp.ofBits_toBits (o : DpOp) : DpOp.ofBits o.toBits = o := by cases o <;> rfl
@[simp] theorem Shift.ofBits_toBits (x : Shift) : Shift.ofBits x.toBits = x := by cases x <;> rfl
@[simp] theorem Mode.ofBits_toBits (m : Mode) : Mode.ofBits m.toBits = m := by cases m <;> rfl

@[simp] theorem Cond.toBits_ofBits (x : BitVec 4) : (Cond.ofBits x).toBits = x := by revert x; decide
@[simp] theorem DpOp.toBits_ofBits (x : BitVec 4) : (DpOp.ofBits x).toBits = x := by revert x; decide
@[simp] theorem Shift.toBits_ofBits (x : BitVec 2) : (Shift.ofBits x).toBits = x := by revert x; decide
@[simp] theorem Mode.toBits_ofBits (x : BitVec 2) : (Mode.ofBits x).toBits = x := by revert x; decide

/-- The bytes of a word, put together again. -/
theorem assemble_chunkOf (w : Word) : assemble (chunkOf w) = w := by
  unfold assemble chunkOf
  ext i hi
  simp only [BitVec.getElem_append, BitVec.getElem_extractLsb']
  split
  · simp only [Nat.zero_add]; exact BitVec.getLsbD_eq_getElem hi
  · split
    · rw [← BitVec.getLsbD_eq_getElem]; congr 1; omega
    · split <;> (rw [← BitVec.getLsbD_eq_getElem]; congr 1; omega)

theorem chunkOf_assemble (k : Chunk) : chunkOf (assemble k) = k := by
  cases k
  simp only [assemble, chunkOf, BitVec.extractLsb'_append_eq_ite]
  simp

/-! ## The fixed bits of each format -/

theorem wordB_mask (c : Cond) (l : Bool) (off24 : BitVec 24) :
    wordB c l off24 &&& 0x0f000000 = 0x0a000000 ||| (BitVec.ofBool l).zeroExtend 32 <<< 24 := by
  ext i hi
  simp only [wordB, BitVec.getElem_and, BitVec.getElem_append]
  interval_cases i <;> simp

theorem wordM_mask (c : Cond) (a sf : Bool) (rd rn rs rm : Reg) :
    wordM c a sf rd rn rs rm &&& 0x0fe000f0 = 0x90 ||| (BitVec.ofBool a).zeroExtend 32 <<< 21 := by
  ext i hi
  simp only [wordM, BitVec.getElem_and, BitVec.getElem_append]
  interval_cases i <;> simp

theorem wordW_mask (c : Cond) (comment24 : BitVec 24) : wordW c comment24 &&& 0x0f000000 = 0x0f000000 := by
  ext i hi
  simp only [wordW, BitVec.getElem_and, BitVec.getElem_append]
  interval_cases i <;> simp

theorem wordDR_mask (c : Cond) (op : DpOp) (sf : Bool) (rn rd : Reg) (o : ShiftedReg) :
    wordDR c op sf rn rd o &&& 0x0fe00000 = op.toBits.zeroExtend 32 <<< 21 := by
  ext i hi
  simp only [wordDR, wordSR, BitVec.getElem_and, BitVec.getElem_append]
  interval_cases i <;> simp

theorem wordDI_mask (c : Cond) (op : DpOp) (sf : Bool) (rn rd : Reg) (o : RotImm) :
    wordDI c op sf rn rd o &&& 0x0fe00000 = 0x02000000 ||| op.toBits.zeroExtend 32 <<< 21 := by
  ext i hi
  simp only [wordDI, BitVec.getElem_and, BitVec.getElem_append]
  interval_cases i <;> simp

theorem wordT_mask (c : Cond) (i l : Bool) (t : TransferBits) (rn rd : Reg) (op2 : BitVec 12) :
    wordT c i t l rn rd op2 &&& 0x0e100000 =
      0x04000000 ||| (BitVec.ofBool i).zeroExtend 32 <<< 25 ||| (BitVec.ofBool l).zeroExtend 32 <<< 20 := by
  ext k hk
  simp only [wordT, BitVec.getElem_and, BitVec.getElem_append]
  interval_cases k <;> simp

theorem wordK_mask (c : Cond) (m : Mode) (sf wb l : Bool) (rn : Reg) (list : BitVec 16) :
    wordK c m sf wb l rn list &&& 0x0f900000 =
      0x08000000 ||| m.toBits.zeroExtend 32 <<< 23 ||| (BitVec.ofBool l).zeroExtend 32 <<< 20 := by
  ext i hi
  simp only [wordK, BitVec.getElem_and, BitVec.getElem_append]
  interval_cases i <;> simp

theorem decodeBytes_chunk (k : Chunk) (rest : List Byte) :
    decodeBytes (k.bytes ++ rest) = .ok (decode (assemble k), rest) := rfl

end Sys2Proof
end

