-- ==== Sys2Proof/Laws/State.lean ====
section
/-! SUPPORT. What each operation over the state does to each field. -/

namespace Sys2Proof.Machine

@[simp] theorem State.drive_baseAddr (s : State) (fam : Family) (f : Fields) (text : Text) (tgt : Option Word) : (s.drive fam f text tgt).baseAddr = s.baseAddr := rfl
@[simp] theorem State.drive_presented (s : State) (fam : Family) (f : Fields) (text : Text) (tgt : Option Word) : (s.drive fam f text tgt).presented = s.presented := rfl
@[simp] theorem State.drive_stream (s : State) (fam : Family) (f : Fields) (text : Text) (tgt : Option Word) : (s.drive fam f text tgt).stream = s.stream := rfl
@[simp] theorem State.drive_lines (s : State) (fam : Family) (f : Fields) (text : Text) (tgt : Option Word) : (s.drive fam f text tgt).lines = s.lines := rfl
@[simp] theorem State.drive_addr (s : State) (fam : Family) (f : Fields) (text : Text) (tgt : Option Word) : (s.drive fam f text tgt).addr = s.addr := rfl
@[simp] theorem State.drive_word (s : State) (fam : Family) (f : Fields) (text : Text) (tgt : Option Word) : (s.drive fam f text tgt).word = s.word := rfl
@[simp] theorem State.drive_family (s : State) (fam : Family) (f : Fields) (text : Text) (tgt : Option Word) : (s.drive fam f text tgt).family = fam := rfl
@[simp] theorem State.drive_fields (s : State) (fam : Family) (f : Fields) (text : Text) (tgt : Option Word) : (s.drive fam f text tgt).fields = f := rfl
@[simp] theorem State.drive_target (s : State) (fam : Family) (f : Fields) (text : Text) (tgt : Option Word) : (s.drive fam f text tgt).target = tgt := rfl
@[simp] theorem State.drive_line (s : State) (fam : Family) (f : Fields) (text : Text) (tgt : Option Word) : (s.drive fam f text tgt).line = assembleLine s.addr s.word text := rfl

@[simp] theorem State.present_baseAddr (s : State) (k : Chunk) (rest : List Chunk) : (s.present k rest).baseAddr = s.baseAddr := rfl
@[simp] theorem State.present_presented (s : State) (k : Chunk) (rest : List Chunk) : (s.present k rest).presented = s.presented + 1 := rfl
@[simp] theorem State.present_stream (s : State) (k : Chunk) (rest : List Chunk) : (s.present k rest).stream = rest := rfl
@[simp] theorem State.present_lines (s : State) (k : Chunk) (rest : List Chunk) : (s.present k rest).lines = s.lines := rfl
@[simp] theorem State.present_addr (s : State) (k : Chunk) (rest : List Chunk) : (s.present k rest).addr = streamAddr s.baseAddr s.presented := rfl
@[simp] theorem State.present_word (s : State) (k : Chunk) (rest : List Chunk) : (s.present k rest).word = assemble k := rfl
@[simp] theorem State.present_family (s : State) (k : Chunk) (rest : List Chunk) : (s.present k rest).family = s.family := rfl
@[simp] theorem State.present_fields (s : State) (k : Chunk) (rest : List Chunk) : (s.present k rest).fields = s.fields := rfl
@[simp] theorem State.present_target (s : State) (k : Chunk) (rest : List Chunk) : (s.present k rest).target = s.target := rfl
@[simp] theorem State.present_line (s : State) (k : Chunk) (rest : List Chunk) : (s.present k rest).line = s.line := rfl

@[simp] theorem State.deliver_baseAddr (s : State) : (s.deliver).baseAddr = s.baseAddr := rfl
@[simp] theorem State.deliver_presented (s : State) : (s.deliver).presented = s.presented := rfl
@[simp] theorem State.deliver_stream (s : State) : (s.deliver).stream = s.stream := rfl
@[simp] theorem State.deliver_lines (s : State) : (s.deliver).lines = s.lines ++ [s.line] := rfl
@[simp] theorem State.deliver_addr (s : State) : (s.deliver).addr = s.addr := rfl
@[simp] theorem State.deliver_word (s : State) : (s.deliver).word = s.word := rfl
@[simp] theorem State.deliver_family (s : State) : (s.deliver).family = s.family := rfl
@[simp] theorem State.deliver_fields (s : State) : (s.deliver).fields = s.fields := rfl
@[simp] theorem State.deliver_target (s : State) : (s.deliver).target = s.target := rfl
@[simp] theorem State.deliver_line (s : State) : (s.deliver).line = s.line := rfl

@[simp] theorem State.putNext_baseAddr (s : State) (w : Word) : (s.putNext w).baseAddr = s.baseAddr := rfl
@[simp] theorem State.putNext_presented (s : State) (w : Word) : (s.putNext w).presented = s.presented := rfl
@[simp] theorem State.putNext_stream (s : State) (w : Word) : (s.putNext w).stream = chunkOf w :: s.stream.drop 1 := rfl
@[simp] theorem State.putNext_lines (s : State) (w : Word) : (s.putNext w).lines = s.lines := rfl
@[simp] theorem State.putNext_addr (s : State) (w : Word) : (s.putNext w).addr = s.addr := rfl
@[simp] theorem State.putNext_word (s : State) (w : Word) : (s.putNext w).word = s.word := rfl
@[simp] theorem State.putNext_family (s : State) (w : Word) : (s.putNext w).family = s.family := rfl
@[simp] theorem State.putNext_fields (s : State) (w : Word) : (s.putNext w).fields = s.fields := rfl
@[simp] theorem State.putNext_target (s : State) (w : Word) : (s.putNext w).target = s.target := rfl
@[simp] theorem State.putNext_line (s : State) (w : Word) : (s.putNext w).line = s.line := rfl

@[simp] theorem State.load_baseAddr (s : State) (base : Word) (input : List Chunk) : (s.load base input).baseAddr = base := rfl
@[simp] theorem State.load_presented (s : State) (base : Word) (input : List Chunk) : (s.load base input).presented = 0 := rfl
@[simp] theorem State.load_stream (s : State) (base : Word) (input : List Chunk) : (s.load base input).stream = input := rfl
@[simp] theorem State.load_lines (s : State) (base : Word) (input : List Chunk) : (s.load base input).lines = [] := rfl
@[simp] theorem State.load_addr (s : State) (base : Word) (input : List Chunk) : (s.load base input).addr = s.addr := rfl
@[simp] theorem State.load_word (s : State) (base : Word) (input : List Chunk) : (s.load base input).word = s.word := rfl
@[simp] theorem State.load_family (s : State) (base : Word) (input : List Chunk) : (s.load base input).family = s.family := rfl
@[simp] theorem State.load_fields (s : State) (base : Word) (input : List Chunk) : (s.load base input).fields = s.fields := rfl
@[simp] theorem State.load_target (s : State) (base : Word) (input : List Chunk) : (s.load base input).target = s.target := rfl
@[simp] theorem State.load_line (s : State) (base : Word) (input : List Chunk) : (s.load base input).line = s.line := rfl

@[simp] theorem State.drive_outputs (s : State) (fam : Family) (f : Fields) (text : Text) (tgt : Option Word) :
    (s.drive fam f text tgt).outputs = ⟨fam, f, tgt, assembleLine s.addr s.word text⟩ := rfl
@[simp] theorem State.present_outputs (s : State) (k : Chunk) (rest : List Chunk) :
    (s.present k rest).outputs = s.outputs := rfl
@[simp] theorem State.deliver_outputs (s : State) : s.deliver.outputs = s.outputs := rfl
@[simp] theorem State.load_outputs (s : State) (base : Word) (input : List Chunk) :
    (s.load base input).outputs = s.outputs := rfl

end Sys2Proof.Machine
end

