-- ==== Sys2Proof/Laws/Ops.lean ====
section
/-! SUPPORT. One lemma per shared operation: everything it can do. -/

namespace Sys2Proof.Machine

theorem State.fetch_nil (s : State) (h : s.stream = []) : s.fetch = s := by simp [State.fetch, h]

theorem State.fetch_cons (s : State) {k : Chunk} {rest : List Chunk} (h : s.stream = k :: rest) :
    s.fetch = s.present k rest := by simp [State.fetch, h]

theorem finish_nil (s : State) (h : s.stream = []) (r : Result) : finish s r = r := by simp [finish, h]

theorem finish_cons (s t : State) {k : Chunk} {rest : List Chunk} (h : s.stream = k :: rest) :
    finish s (.next t) = .next t.deliver := by simp [finish, h]

theorem settle_eq (s : State) (fam : Family) (f : Fields) (text : Text) (target : Option Word) :
    settle s fam f text target = .next (s.drive fam f text target) := rfl

theorem branch_eq (name : Text) (link : Bool) (c : Cond) (off24 : BitVec 24) (s : State) :
    branch name link c off24 s = .next (s.drive .branch (.branch ⟨c, link, off24⟩)
      (name ++ condText c ++ " ".toList ++ hex8 (branchTarget s.addr off24)) (some (branchTarget s.addr off24))) := rfl

theorem multiply_eq (name : Text) (acc : Bool) (c : Cond) (sf : Bool) (rd rn rs rm : Reg) (s : State) :
    multiply name acc c sf rd rn rs rm s = .next (s.drive .multiply (.multiply ⟨c, acc, sf, rd, rm, rs, rn⟩)
      (name ++ condText c ++ setFlagsLetter sf ++ " ".toList ++ reg rd ++ ",".toList ++ reg rm ++ ",".toList ++ reg rs ++
        if acc then ",".toList ++ reg rn else [])) := rfl

theorem twoOperand_eq (op : DpOp) (c : Cond) (sf : Bool) (rn rd : Reg) (op2 : Operand2) (s : State) :
    twoOperand op c sf rn rd op2 s = .next (s.drive .dataProcessing (dpFields op c sf rn rd op2)
      (dpName op ++ condText c ++ setFlagsLetter sf ++ " ".toList ++ reg rd ++ ",".toList ++ reg rn ++
        operand2Text op2)) := rfl

theorem comparison_eq (op : DpOp) (c : Cond) (sf : Bool) (rn rd : Reg) (op2 : Operand2) (s : State) :
    comparison op c sf rn rd op2 s = .next (s.drive .dataProcessing (dpFields op c sf rn rd op2)
      (dpName op ++ condText c ++ comparisonLetter rd ++ " ".toList ++ reg rn ++ operand2Text op2)) := rfl

theorem singleDestination_eq (op : DpOp) (c : Cond) (sf : Bool) (rn rd : Reg) (op2 : Operand2) (s : State) :
    singleDestination op c sf rn rd op2 s = .next (s.drive .dataProcessing (dpFields op c sf rn rd op2)
      (dpName op ++ condText c ++ setFlagsLetter sf ++ " ".toList ++ reg rd ++ operand2Text op2)) := rfl

theorem singleTransfer_eq (name : Text) (load : Bool) (c : Cond) (t : TransferBits) (rn rd : Reg) (off : Offset)
    (s : State) :
    singleTransfer name load c t rn rd off s = .next (s.drive .singleTransfer
      (.singleTransfer ⟨c, off.isReg, t.P, t.U, t.B, t.W, load, rn, rd, off⟩)
      (name ++ condText c ++ byteLetter t.B ++ " ".toList ++ reg rd ++ ",[".toList ++ reg rn ++
        offsetText Config.params off ++ "]".toList)) := rfl

theorem blockTransfer_eq (name : Text) (load : Bool) (m : Mode) (c : Cond) (sf wb : Bool) (rn : Reg) (list : BitVec 16)
    (s : State) :
    blockTransfer name load m c sf wb rn list s = .next (s.drive .blockTransfer
      (.blockTransfer ⟨c, m, sf, wb, load, rn, list⟩)
      (name ++ condText c ++ modeName m ++ " ".toList ++ reg rn ++ writebackMark wb ++ ",".toList ++ [lbrace] ++
        reglist list ++ [rbrace] ++ userBankMark sf)) := rfl

theorem rawWord_eq (w : Word) (s : State) :
    rawWord w s = .next (s.drive .unknown (.unknown w) (textRaw Config.params w)) := rfl

theorem hex8_length (v : Word) : (hex8 v).length = 8 := rfl

end Sys2Proof.Machine
end

