-- ==== Sys2Proof/Laws/PerInstr.lean ====
section
/-! SUPPORT. Per instruction: the encoding of a well-formed instruction belongs to the instruction's row of the opcode
table. -/

namespace Sys2Proof.Laws

/-- The word of `i` matches the mask and pattern of its row (30_encoding.md R43). -/
def InRow.Statement (i : Instr) : Prop :=
  i.wf = true → ∃ r, opcodeTable[i.rowIndex]? = some r ∧ encode i &&& r.mask = r.pattern

theorem InRow.b (c : Cond) (off24 : BitVec 24) : InRow.Statement (.b c off24) :=
  fun _ => ⟨_, rfl, wordB_mask ..⟩

theorem InRow.bl (c : Cond) (off24 : BitVec 24) : InRow.Statement (.bl c off24) :=
  fun _ => ⟨_, rfl, wordB_mask ..⟩

theorem InRow.mul (c : Cond) (sf : Bool) (rd rn rs rm : Reg) : InRow.Statement (.mul c sf rd rn rs rm) :=
  fun _ => ⟨_, rfl, wordM_mask ..⟩

theorem InRow.mla (c : Cond) (sf : Bool) (rd rn rs rm : Reg) : InRow.Statement (.mla c sf rd rn rs rm) :=
  fun _ => ⟨_, rfl, wordM_mask ..⟩

theorem InRow.swi (c : Cond) (comment24 : BitVec 24) : InRow.Statement (.swi c comment24) :=
  fun _ => ⟨_, rfl, wordW_mask ..⟩

theorem InRow.andR (c : Cond) (sf : Bool) (rn rd : Reg) (o : ShiftedReg) : InRow.Statement (.andR c sf rn rd o) :=
  fun _ => ⟨_, rfl, wordDR_mask ..⟩

theorem InRow.eorR (c : Cond) (sf : Bool) (rn rd : Reg) (o : ShiftedReg) : InRow.Statement (.eorR c sf rn rd o) :=
  fun _ => ⟨_, rfl, wordDR_mask ..⟩

theorem InRow.subR (c : Cond) (sf : Bool) (rn rd : Reg) (o : ShiftedReg) : InRow.Statement (.subR c sf rn rd o) :=
  fun _ => ⟨_, rfl, wordDR_mask ..⟩

theorem InRow.rsbR (c : Cond) (sf : Bool) (rn rd : Reg) (o : ShiftedReg) : InRow.Statement (.rsbR c sf rn rd o) :=
  fun _ => ⟨_, rfl, wordDR_mask ..⟩

theorem InRow.addR (c : Cond) (sf : Bool) (rn rd : Reg) (o : ShiftedReg) : InRow.Statement (.addR c sf rn rd o) :=
  fun _ => ⟨_, rfl, wordDR_mask ..⟩

theorem InRow.adcR (c : Cond) (sf : Bool) (rn rd : Reg) (o : ShiftedReg) : InRow.Statement (.adcR c sf rn rd o) :=
  fun _ => ⟨_, rfl, wordDR_mask ..⟩

theorem InRow.sbcR (c : Cond) (sf : Bool) (rn rd : Reg) (o : ShiftedReg) : InRow.Statement (.sbcR c sf rn rd o) :=
  fun _ => ⟨_, rfl, wordDR_mask ..⟩

theorem InRow.rscR (c : Cond) (sf : Bool) (rn rd : Reg) (o : ShiftedReg) : InRow.Statement (.rscR c sf rn rd o) :=
  fun _ => ⟨_, rfl, wordDR_mask ..⟩

theorem InRow.tstR (c : Cond) (sf : Bool) (rn rd : Reg) (o : ShiftedReg) : InRow.Statement (.tstR c sf rn rd o) :=
  fun _ => ⟨_, rfl, wordDR_mask ..⟩

theorem InRow.teqR (c : Cond) (sf : Bool) (rn rd : Reg) (o : ShiftedReg) : InRow.Statement (.teqR c sf rn rd o) :=
  fun _ => ⟨_, rfl, wordDR_mask ..⟩

theorem InRow.cmpR (c : Cond) (sf : Bool) (rn rd : Reg) (o : ShiftedReg) : InRow.Statement (.cmpR c sf rn rd o) :=
  fun _ => ⟨_, rfl, wordDR_mask ..⟩

theorem InRow.cmnR (c : Cond) (sf : Bool) (rn rd : Reg) (o : ShiftedReg) : InRow.Statement (.cmnR c sf rn rd o) :=
  fun _ => ⟨_, rfl, wordDR_mask ..⟩

theorem InRow.orrR (c : Cond) (sf : Bool) (rn rd : Reg) (o : ShiftedReg) : InRow.Statement (.orrR c sf rn rd o) :=
  fun _ => ⟨_, rfl, wordDR_mask ..⟩

theorem InRow.movR (c : Cond) (sf : Bool) (rn rd : Reg) (o : ShiftedReg) : InRow.Statement (.movR c sf rn rd o) :=
  fun _ => ⟨_, rfl, wordDR_mask ..⟩

theorem InRow.bicR (c : Cond) (sf : Bool) (rn rd : Reg) (o : ShiftedReg) : InRow.Statement (.bicR c sf rn rd o) :=
  fun _ => ⟨_, rfl, wordDR_mask ..⟩

theorem InRow.mvnR (c : Cond) (sf : Bool) (rn rd : Reg) (o : ShiftedReg) : InRow.Statement (.mvnR c sf rn rd o) :=
  fun _ => ⟨_, rfl, wordDR_mask ..⟩

theorem InRow.andI (c : Cond) (sf : Bool) (rn rd : Reg) (o : RotImm) : InRow.Statement (.andI c sf rn rd o) :=
  fun _ => ⟨_, rfl, wordDI_mask ..⟩

theorem InRow.eorI (c : Cond) (sf : Bool) (rn rd : Reg) (o : RotImm) : InRow.Statement (.eorI c sf rn rd o) :=
  fun _ => ⟨_, rfl, wordDI_mask ..⟩

theorem InRow.subI (c : Cond) (sf : Bool) (rn rd : Reg) (o : RotImm) : InRow.Statement (.subI c sf rn rd o) :=
  fun _ => ⟨_, rfl, wordDI_mask ..⟩

theorem InRow.rsbI (c : Cond) (sf : Bool) (rn rd : Reg) (o : RotImm) : InRow.Statement (.rsbI c sf rn rd o) :=
  fun _ => ⟨_, rfl, wordDI_mask ..⟩

theorem InRow.addI (c : Cond) (sf : Bool) (rn rd : Reg) (o : RotImm) : InRow.Statement (.addI c sf rn rd o) :=
  fun _ => ⟨_, rfl, wordDI_mask ..⟩

theorem InRow.adcI (c : Cond) (sf : Bool) (rn rd : Reg) (o : RotImm) : InRow.Statement (.adcI c sf rn rd o) :=
  fun _ => ⟨_, rfl, wordDI_mask ..⟩

theorem InRow.sbcI (c : Cond) (sf : Bool) (rn rd : Reg) (o : RotImm) : InRow.Statement (.sbcI c sf rn rd o) :=
  fun _ => ⟨_, rfl, wordDI_mask ..⟩

theorem InRow.rscI (c : Cond) (sf : Bool) (rn rd : Reg) (o : RotImm) : InRow.Statement (.rscI c sf rn rd o) :=
  fun _ => ⟨_, rfl, wordDI_mask ..⟩

theorem InRow.tstI (c : Cond) (sf : Bool) (rn rd : Reg) (o : RotImm) : InRow.Statement (.tstI c sf rn rd o) :=
  fun _ => ⟨_, rfl, wordDI_mask ..⟩

theorem InRow.teqI (c : Cond) (sf : Bool) (rn rd : Reg) (o : RotImm) : InRow.Statement (.teqI c sf rn rd o) :=
  fun _ => ⟨_, rfl, wordDI_mask ..⟩

theorem InRow.cmpI (c : Cond) (sf : Bool) (rn rd : Reg) (o : RotImm) : InRow.Statement (.cmpI c sf rn rd o) :=
  fun _ => ⟨_, rfl, wordDI_mask ..⟩

theorem InRow.cmnI (c : Cond) (sf : Bool) (rn rd : Reg) (o : RotImm) : InRow.Statement (.cmnI c sf rn rd o) :=
  fun _ => ⟨_, rfl, wordDI_mask ..⟩

theorem InRow.orrI (c : Cond) (sf : Bool) (rn rd : Reg) (o : RotImm) : InRow.Statement (.orrI c sf rn rd o) :=
  fun _ => ⟨_, rfl, wordDI_mask ..⟩

theorem InRow.movI (c : Cond) (sf : Bool) (rn rd : Reg) (o : RotImm) : InRow.Statement (.movI c sf rn rd o) :=
  fun _ => ⟨_, rfl, wordDI_mask ..⟩

theorem InRow.bicI (c : Cond) (sf : Bool) (rn rd : Reg) (o : RotImm) : InRow.Statement (.bicI c sf rn rd o) :=
  fun _ => ⟨_, rfl, wordDI_mask ..⟩

theorem InRow.mvnI (c : Cond) (sf : Bool) (rn rd : Reg) (o : RotImm) : InRow.Statement (.mvnI c sf rn rd o) :=
  fun _ => ⟨_, rfl, wordDI_mask ..⟩

theorem InRow.strI (c : Cond) (t : TransferBits) (rn rd : Reg) (imm12 : BitVec 12) : InRow.Statement (.strI c t rn rd imm12) :=
  fun _ => ⟨_, rfl, wordT_mask ..⟩

theorem InRow.ldrI (c : Cond) (t : TransferBits) (rn rd : Reg) (imm12 : BitVec 12) : InRow.Statement (.ldrI c t rn rd imm12) :=
  fun _ => ⟨_, rfl, wordT_mask ..⟩

theorem InRow.strR (c : Cond) (t : TransferBits) (rn rd : Reg) (o : ShiftedReg) : InRow.Statement (.strR c t rn rd o) :=
  fun _ => ⟨_, rfl, wordT_mask ..⟩

theorem InRow.ldrR (c : Cond) (t : TransferBits) (rn rd : Reg) (o : ShiftedReg) : InRow.Statement (.ldrR c t rn rd o) :=
  fun _ => ⟨_, rfl, wordT_mask ..⟩

theorem InRow.stmda (c : Cond) (sf wb : Bool) (rn : Reg) (list : BitVec 16) : InRow.Statement (.stmda c sf wb rn list) :=
  fun _ => ⟨_, rfl, wordK_mask ..⟩

theorem InRow.stmia (c : Cond) (sf wb : Bool) (rn : Reg) (list : BitVec 16) : InRow.Statement (.stmia c sf wb rn list) :=
  fun _ => ⟨_, rfl, wordK_mask ..⟩

theorem InRow.stmdb (c : Cond) (sf wb : Bool) (rn : Reg) (list : BitVec 16) : InRow.Statement (.stmdb c sf wb rn list) :=
  fun _ => ⟨_, rfl, wordK_mask ..⟩

theorem InRow.stmib (c : Cond) (sf wb : Bool) (rn : Reg) (list : BitVec 16) : InRow.Statement (.stmib c sf wb rn list) :=
  fun _ => ⟨_, rfl, wordK_mask ..⟩

theorem InRow.ldmda (c : Cond) (sf wb : Bool) (rn : Reg) (list : BitVec 16) : InRow.Statement (.ldmda c sf wb rn list) :=
  fun _ => ⟨_, rfl, wordK_mask ..⟩

theorem InRow.ldmia (c : Cond) (sf wb : Bool) (rn : Reg) (list : BitVec 16) : InRow.Statement (.ldmia c sf wb rn list) :=
  fun _ => ⟨_, rfl, wordK_mask ..⟩

theorem InRow.ldmdb (c : Cond) (sf wb : Bool) (rn : Reg) (list : BitVec 16) : InRow.Statement (.ldmdb c sf wb rn list) :=
  fun _ => ⟨_, rfl, wordK_mask ..⟩

theorem InRow.ldmib (c : Cond) (sf wb : Bool) (rn : Reg) (list : BitVec 16) : InRow.Statement (.ldmib c sf wb rn list) :=
  fun _ => ⟨_, rfl, wordK_mask ..⟩

theorem InRow.rawHigh6 (w : Word) : InRow.Statement (.rawHigh6 w) :=
  fun h => ⟨_, rfl, by simpa [Instr.wf, encode] using h⟩

theorem InRow.rawHigh7 (w : Word) : InRow.Statement (.rawHigh7 w) :=
  fun h => ⟨_, rfl, by simpa [Instr.wf, encode] using h⟩

end Sys2Proof.Laws
end

