-- ==== Sys2Proof/Tests/Slice0.lean ====
section
/-! SUPPORT. Tests.  Every expected value is taken from a worked example or vector of the spec, named in the comment, or
read off the spec's format tables by hand; the section numbers are those of 95_test_vectors.md. -/

namespace Sys2Proof.Tests

open Sys2Proof Sys2Proof.Machine

/-- A state with these values on the input ports. -/
def inputs (addr word : Word) : State := { State.reset with addr := addr, word := word }

/-- The line of the first word of a stream at a base address, one step from reset. -/
def lineAt (base : Word) (w : Nat) : Option Text :=
  match step ((State.reset.load base []).withFetchWord 32 w) with
  | .next t => some t.line
  | _ => none

/-- The outcome is a next state. -/
def isNext : Result → Bool
  | .next _ => true
  | _ => false

/-! ## WellFormed: each check refuses an ill-formed term -/

theorem test_wf_andR_refuses_multiply_pattern : Instr.wf (.andR .al false 0 0 ⟨0, true, .lsl, true, 0⟩) = false := by decide
theorem test_wf_eorR_refuses_multiply_pattern : Instr.wf (.eorR .al false 0 0 ⟨5, true, .lsl, true, 3⟩) = false := by decide
theorem test_wf_rawHigh6_refuses_other_word : Instr.wf (.rawHigh6 0xee000000) = false := by decide
theorem test_wf_rawHigh7_refuses_swi_word : Instr.wf (.rawHigh7 0xef000000) = false := by decide
theorem test_wf_subR_admits_the_pattern : Instr.wf (.subR .eq false 0 0 ⟨0, true, .lsl, true, 0⟩) = true := by decide

/-! ## Decode: every constructor by a word of the spec, its fields read off the format tables -/

theorem test_decode_b : decode 0xeafffffe = .b .al 0xfffffe := by decide
theorem test_decode_bl : decode 0x1b000010 = .bl .ne 0x000010 := by decide
theorem test_decode_mul : decode 0xe001f392 = .mul .al false 1 15 3 2 := by decide
theorem test_decode_mla : decode 0x10312394 = .mla .ne true 1 2 3 4 := by decide
theorem test_decode_swi : decode 0xffffffff = .swi .nv 0xffffff := by decide
theorem test_decode_andR : decode 0x00125107 = .andR .eq true 2 5 ⟨1, false, .lsl, false, 7⟩ := by decide
theorem test_decode_eorR : decode 0x10336438 = .eorR .ne true 3 6 ⟨4, false, .lsr, true, 8⟩ := by decide
theorem test_decode_subR : decode 0x20547749 = .subR .cs true 4 7 ⟨7, false, .asr, false, 9⟩ := by decide
theorem test_decode_rsbR : decode 0x30758a7a = .rsbR .cc true 5 8 ⟨10, false, .ror, true, 10⟩ := by decide
theorem test_decode_addR : decode 0x40969d0b = .addR .mi true 6 9 ⟨13, false, .lsl, false, 11⟩ := by decide
theorem test_decode_adcR : decode 0x50b7a03c = .adcR .pl true 7 10 ⟨0, false, .lsr, true, 12⟩ := by decide
theorem test_decode_sbcR : decode 0x60d8b34d = .sbcR .vs true 8 11 ⟨3, false, .asr, false, 13⟩ := by decide
theorem test_decode_rscR : decode 0x70f9c67e = .rscR .vc true 9 12 ⟨6, false, .ror, true, 14⟩ := by decide
theorem test_decode_tstR : decode 0x811ad90f = .tstR .hi true 10 13 ⟨9, false, .lsl, false, 15⟩ := by decide
theorem test_decode_teqR : decode 0xe12fff1e = .teqR .al false 15 15 ⟨15, false, .lsl, true, 14⟩ := by decide
theorem test_decode_cmpR : decode 0xa15cff41 = .cmpR .ge true 12 15 ⟨15, false, .asr, false, 1⟩ := by decide
theorem test_decode_cmnR : decode 0xb17d0272 = .cmnR .lt true 13 0 ⟨2, false, .ror, true, 2⟩ := by decide
theorem test_decode_orrR : decode 0xc19e1503 = .orrR .gt true 14 1 ⟨5, false, .lsl, false, 3⟩ := by decide
theorem test_decode_movR : decode 0xd1bf2834 = .movR .le true 15 2 ⟨8, false, .lsr, true, 4⟩ := by decide
theorem test_decode_bicR : decode 0x01d03b45 = .bicR .eq true 0 3 ⟨11, false, .asr, false, 5⟩ := by decide
theorem test_decode_mvnR : decode 0x11f14e76 = .mvnR .ne true 1 4 ⟨14, false, .ror, true, 6⟩ := by decide
theorem test_decode_andI : decode 0xe2010010 = .andI .al false 1 0 ⟨0, 0x10⟩ := by decide
theorem test_decode_eorI : decode 0x12345678 = .eorI .ne true 4 5 ⟨6, 0x78⟩ := by decide
theorem test_decode_subI : decode 0xe2432212 = .subI .al false 3 2 ⟨2, 0x12⟩ := by decide
theorem test_decode_rsbI : decode 0xe2643313 = .rsbI .al false 4 3 ⟨3, 0x13⟩ := by decide
theorem test_decode_addI : decode 0x02910001 = .addI .eq true 1 0 ⟨0, 0x01⟩ := by decide
theorem test_decode_adcI : decode 0xe2a15115 = .adcI .al false 1 5 ⟨1, 0x15⟩ := by decide
theorem test_decode_sbcI : decode 0xe2c26216 = .sbcI .al false 2 6 ⟨2, 0x16⟩ := by decide
theorem test_decode_rscI : decode 0xe2e30317 = .rscI .al false 3 0 ⟨3, 0x17⟩ := by decide
theorem test_decode_tstI : decode 0xe310f001 = .tstI .al true 0 15 ⟨0, 0x01⟩ := by decide
theorem test_decode_teqI : decode 0xe3252119 = .teqI .al false 5 2 ⟨1, 0x19⟩ := by decide
theorem test_decode_cmpI : decode 0x1350f000 = .cmpI .ne true 0 15 ⟨0, 0x00⟩ := by decide
theorem test_decode_cmnI : decode 0xe362431b = .cmnI .al false 2 4 ⟨3, 0x1b⟩ := by decide
theorem test_decode_orrI : decode 0xe383501c = .orrI .al false 3 5 ⟨0, 0x1c⟩ := by decide
theorem test_decode_movI : decode 0xe3a00dff = .movI .al false 0 0 ⟨13, 0xff⟩ := by decide
theorem test_decode_bicI : decode 0xe3c5021e = .bicI .al false 5 0 ⟨2, 0x1e⟩ := by decide
theorem test_decode_mvnI : decode 0xe3e1131f = .mvnI .al false 1 1 ⟨3, 0x1f⟩ := by decide
theorem test_decode_strI : decode 0xe5c10004 = .strI .al ⟨true, true, true, false⟩ 1 0 0x004 := by decide
theorem test_decode_ldrI : decode 0xe5910fff = .ldrI .al ⟨true, true, false, false⟩ 1 0 0xfff := by decide
theorem test_decode_strR : decode 0xe7a23003 = .strR .al ⟨true, true, false, true⟩ 2 3 ⟨0, false, .lsl, false, 3⟩ := by decide
theorem test_decode_ldrR : decode 0x17d10002 = .ldrR .ne ⟨true, true, true, false⟩ 1 0 ⟨0, false, .lsl, false, 2⟩ := by decide
theorem test_decode_stmda : decode 0x08000000 = .stmda .eq false false 0 0x0000 := by decide
theorem test_decode_stmia : decode 0xe8a08009 = .stmia .al false true 0 0x8009 := by decide
theorem test_decode_stmdb : decode 0xe92d4010 = .stmdb .al false true 13 0x4010 := by decide
theorem test_decode_stmib : decode 0xe9808009 = .stmib .al false false 0 0x8009 := by decide
theorem test_decode_ldmda : decode 0xe8508009 = .ldmda .al true false 0 0x8009 := by decide
theorem test_decode_ldmia : decode 0x18fd0001 = .ldmia .ne true true 13 0x0001 := by decide
theorem test_decode_ldmdb : decode 0xe9108009 = .ldmdb .al false false 0 0x8009 := by decide
theorem test_decode_ldmib : decode 0xe9908009 = .ldmib .al false false 0 0x8009 := by decide
theorem test_decode_rawHigh6 : decode 0xec000000 = .rawHigh6 0xec000000 := by decide
theorem test_decode_rawHigh7 : decode 0xee123456 = .rawHigh7 0xee123456 := by decide

/-- 40_classifier.md section 5: bits 7:4 = 1001 but bit 22 set. -/
theorem test_decode_not_multiply_bit22 : decode 0x00400090 = .subR .eq false 0 0 ⟨0, true, .lsl, true, 0⟩ := by decide
/-- 40_classifier.md section 5: bits 7:4 = 1000. -/
theorem test_decode_not_multiply_bit4 : decode 0x00000080 = .andR .eq false 0 0 ⟨0, true, .lsl, false, 0⟩ := by decide
/-- 40_classifier.md section 5: the multiply pattern with every other field zero. -/
theorem test_decode_multiply_zero : decode 0x00000090 = .mul .eq false 0 0 0 0 := by decide

/-- 20_memory.md R20, worked example: the bytes `e3 a0 00 01`, most significant first. -/
theorem test_assemble_big_endian : assemble ⟨0xe3, 0xa0, 0x00, 0x01⟩ = 0xe3a00001 := by decide
theorem test_decodeBytes_rest : decodeBytes [0xe3, 0xa0, 0x00, 0x01, 0xe1] = .ok (.movI .al false 0 0 ⟨0, 1⟩, [0xe1]) := by decide
theorem test_decodeBytes_truncated : decodeBytes [0xe3, 0xa0, 0x00] = .error .truncated := by decide
theorem test_decodeTableWord : decodeTableWord 32 0x0f000000 = some (.swi .eq 0) := by decide

/-! ## Lines: one step from reset with the word as the first of the stream -/

/-- V3. -/
theorem test_line_b : lineAt 0x1000 0xeafffffe = some ("00001000 : eafffffe : b 00001000".toList) := by decide
/-- R72. -/
theorem test_line_bl : lineAt 0x8000 0x1b000010 = some ("00008000 : 1b000010 : blne 00008048".toList) := by decide
/-- 2.3, the accumulate field is ignored. -/
theorem test_line_mul : lineAt 0x8000 0xe001f392 = some ("00008000 : e001f392 : mul r1,r2,r3".toList) := by decide
/-- V6. -/
theorem test_line_mla : lineAt 0x0 0x10312394 = some ("00000000 : 10312394 : mlanes r1,r4,r3,r2".toList) := by decide
/-- R80. -/
theorem test_line_swi : lineAt 0x8000 0xffffffff = some ("00008000 : ffffffff : swinv 16777215".toList) := by decide
/-- R90. -/
theorem test_line_andR : lineAt 0x8000 0x00125107 = some ("00008000 : 00125107 : andeqs r5,r2,r7 lsl 1".toList) := by decide
/-- R91. -/
theorem test_line_eorR : lineAt 0x8000 0x10336438 = some ("00008000 : 10336438 : eornes r6,r3,r8 lsr r4".toList) := by decide
/-- R92. -/
theorem test_line_subR : lineAt 0x8000 0x20547749 = some ("00008000 : 20547749 : subcss r7,r4,r9 asr 7".toList) := by decide
/-- R93. -/
theorem test_line_rsbR : lineAt 0x8000 0x30758a7a = some ("00008000 : 30758a7a : rsbccs r8,r5,r10 ror r10".toList) := by decide
/-- R94. -/
theorem test_line_addR : lineAt 0x8000 0x40969d0b = some ("00008000 : 40969d0b : addmis r9,r6,r11 lsl 13".toList) := by decide
/-- R95. -/
theorem test_line_adcR : lineAt 0x8000 0x50b7a03c = some ("00008000 : 50b7a03c : adcpls r10,r7,r12 lsr r0".toList) := by decide
/-- R96. -/
theorem test_line_sbcR : lineAt 0x8000 0x60d8b34d = some ("00008000 : 60d8b34d : sbcvss r11,r8,r13 asr 3".toList) := by decide
/-- R97. -/
theorem test_line_rscR : lineAt 0x8000 0x70f9c67e = some ("00008000 : 70f9c67e : rscvcs r12,r9,r14 ror r6".toList) := by decide
/-- R100. -/
theorem test_line_tstR : lineAt 0x8000 0x811ad90f = some ("00008000 : 811ad90f : tsthi r10,r15 lsl 9".toList) := by decide
/-- R101. -/
theorem test_line_teqR : lineAt 0x8000 0xe12fff1e = some ("00008000 : e12fff1e : teqp r15,r14 lsl r15".toList) := by decide
/-- R102. -/
theorem test_line_cmpR : lineAt 0x8000 0xa15cff41 = some ("00008000 : a15cff41 : cmpgep r12,r1 asr 15".toList) := by decide
/-- R103. -/
theorem test_line_cmnR : lineAt 0x8000 0xb17d0272 = some ("00008000 : b17d0272 : cmnlt r13,r2 ror r2".toList) := by decide
/-- R98. -/
theorem test_line_orrR : lineAt 0x8000 0xc19e1503 = some ("00008000 : c19e1503 : orrgts r1,r14,r3 lsl 5".toList) := by decide
/-- R104. -/
theorem test_line_movR : lineAt 0x8000 0xd1bf2834 = some ("00008000 : d1bf2834 : movles r2,r4 lsr r8".toList) := by decide
/-- R99. -/
theorem test_line_bicR : lineAt 0x8000 0x01d03b45 = some ("00008000 : 01d03b45 : biceqs r3,r0,r5 asr 11".toList) := by decide
/-- R105. -/
theorem test_line_mvnR : lineAt 0x8000 0x11f14e76 = some ("00008000 : 11f14e76 : mvnnes r4,r6 ror r14".toList) := by decide
/-- R90. -/
theorem test_line_andI : lineAt 0x8000 0xe2010010 = some ("00008000 : e2010010 : and r0,r1,16".toList) := by decide
/-- P3. -/
theorem test_line_eorI : lineAt 0x10010 0x12345678 = some ("00010010 : 12345678 : eornes r5,r4,491520".toList) := by decide
/-- R92. -/
theorem test_line_subI : lineAt 0x8000 0xe2432212 = some ("00008000 : e2432212 : sub r2,r3,288".toList) := by decide
/-- R93. -/
theorem test_line_rsbI : lineAt 0x8000 0xe2643313 = some ("00008000 : e2643313 : rsb r3,r4,1216".toList) := by decide
/-- 2.5. -/
theorem test_line_addI : lineAt 0x8000 0x02910001 = some ("00008000 : 02910001 : addeqs r0,r1,1".toList) := by decide
/-- R95. -/
theorem test_line_adcI : lineAt 0x8000 0xe2a15115 = some ("00008000 : e2a15115 : adc r5,r1,84".toList) := by decide
/-- R96. -/
theorem test_line_sbcI : lineAt 0x8000 0xe2c26216 = some ("00008000 : e2c26216 : sbc r6,r2,352".toList) := by decide
/-- R97. -/
theorem test_line_rscI : lineAt 0x8000 0xe2e30317 = some ("00008000 : e2e30317 : rsc r0,r3,1472".toList) := by decide
/-- R100. -/
theorem test_line_tstI : lineAt 0x8000 0xe310f001 = some ("00008000 : e310f001 : tstp r0,1".toList) := by decide
/-- R101. -/
theorem test_line_teqI : lineAt 0x8000 0xe3252119 = some ("00008000 : e3252119 : teq r5,100".toList) := by decide
/-- 2.5. -/
theorem test_line_cmpI : lineAt 0x8000 0x1350f000 = some ("00008000 : 1350f000 : cmpnep r0,0".toList) := by decide
/-- R103. -/
theorem test_line_cmnI : lineAt 0x8000 0xe362431b = some ("00008000 : e362431b : cmn r2,1728".toList) := by decide
/-- R98. -/
theorem test_line_orrI : lineAt 0x8000 0xe383501c = some ("00008000 : e383501c : orr r5,r3,28".toList) := by decide
/-- 2.5, the fold. -/
theorem test_line_movI : lineAt 0x8000 0xe3a00dff = some ("00008000 : e3a00dff : mov r0,4227858435".toList) := by decide
/-- R99. -/
theorem test_line_bicI : lineAt 0x8000 0xe3c5021e = some ("00008000 : e3c5021e : bic r0,r5,480".toList) := by decide
/-- R105. -/
theorem test_line_mvnI : lineAt 0x8000 0xe3e1131f = some ("00008000 : e3e1131f : mvn r1,1984".toList) := by decide
/-- 2.7. -/
theorem test_line_strI : lineAt 0x8000 0xe5c10004 =
    some ("00008000 : e5c10004 : strb r0,[r1".toList ++ (Config.params.placeholder ++ "]".toList)) := rfl
/-- 2.7. -/
theorem test_line_ldrI : lineAt 0x8000 0xe5910fff =
    some ("00008000 : e5910fff : ldr r0,[r1".toList ++ (Config.params.placeholder ++ "]".toList)) := rfl
/-- R117, W is not rendered. -/
theorem test_line_strR : lineAt 0x8000 0xe7a23003 = some ("00008000 : e7a23003 : str r3,[r2,r3]".toList) := by decide
/-- 2.7. -/
theorem test_line_ldrR : lineAt 0x8000 0x17d10002 = some ("00008000 : 17d10002 : ldrneb r0,[r1,r2]".toList) := by decide
/-- R124. -/
theorem test_line_stmda : lineAt 0x8000 0x08000000 = some ("00008000 : 08000000 : stmeqda r0,".toList ++ [lbrace] ++ [rbrace]) := by decide
/-- R124. -/
theorem test_line_stmia : lineAt 0x8000 0xe8a08009 = some ("00008000 : e8a08009 : stmia r0!,".toList ++ [lbrace] ++ "r0,r3,r15".toList ++ [rbrace]) := by decide
/-- R124. -/
theorem test_line_stmdb : lineAt 0x8000 0xe92d4010 = some ("00008000 : e92d4010 : stmdb r13!,".toList ++ [lbrace] ++ "r4,r14".toList ++ [rbrace]) := by decide
/-- 2.8. -/
theorem test_line_stmib : lineAt 0x8000 0xe9808009 = some ("00008000 : e9808009 : stmib r0,".toList ++ [lbrace] ++ "r0,r3,r15".toList ++ [rbrace]) := by decide
/-- R123. -/
theorem test_line_ldmda : lineAt 0x8000 0xe8508009 = some ("00008000 : e8508009 : ldmda r0,".toList ++ [lbrace] ++ "r0,r3,r15".toList ++ [rbrace] ++ "^".toList) := by decide
/-- R123. -/
theorem test_line_ldmia : lineAt 0x8000 0x18fd0001 = some ("00008000 : 18fd0001 : ldmneia r13!,".toList ++ [lbrace] ++ "r0".toList ++ [rbrace] ++ "^".toList) := by decide
/-- 2.8. -/
theorem test_line_ldmdb : lineAt 0x8000 0xe9108009 = some ("00008000 : e9108009 : ldmdb r0,".toList ++ [lbrace] ++ "r0,r3,r15".toList ++ [rbrace]) := by decide
/-- R123. -/
theorem test_line_ldmib : lineAt 0x8000 0xe9908009 = some ("00008000 : e9908009 : ldmib r0,".toList ++ [lbrace] ++ "r0,r3,r15".toList ++ [rbrace]) := by decide
/-- V8. -/
theorem test_line_rawHigh6 : lineAt 0x10 0xec000000 =
    some ("00000010 : ec000000 : ".toList ++ (Config.params.marker ++ "ec000000".toList)) := rfl
/-- V8. -/
theorem test_line_rawHigh7 : lineAt 0x14 0xee123456 =
    some ("00000014 : ee123456 : ".toList ++ (Config.params.marker ++ "ee123456".toList)) := rfl

/-! ## The two OPEN strings at the spec's defaults, on the whole-block function -/

/-- 2.7. -/
theorem test_default_placeholder :
    Block.line Config.vectorParams 0x8000 0xe59ff000 = "00008000 : e59ff000 : ldr r15,[r15,?]".toList := by decide
/-- 2.9. -/
theorem test_default_marker :
    Block.line Config.vectorParams 0x8000 0xfe000010 = "00008000 : fe000010 : .word fe000010".toList := by decide
/-- R132: the fallback renderer applied to a word of another family. -/
theorem test_textRaw_any_word : textRaw Config.vectorParams 0xe3a00001 = ".word e3a00001".toList := by decide

/-! ## Text primitives (2.10) and operands (46_shifted_operand.md, 30_encoding.md R40) -/

theorem test_hex8 : hex8 0xdeadbeef = "deadbeef".toList ∧ hex8 0xa = "0000000a".toList := by decide
theorem test_dec : dec 0 = "0".toList ∧ dec 4278190080 = "4278190080".toList := by decide
theorem test_shreg_only_bit7 : shreg (shiftedRegOf 0x080) = ",r0 lsl 0".toList := by decide
theorem test_shreg_only_bit4 : shreg (shiftedRegOf 0x010) = ",r0 lsl r0".toList := by decide
theorem test_shreg_all_ones : shreg (shiftedRegOf 0xfff) = ",r15 ror r15".toList := by decide
theorem test_imm32_fold : imm32 ⟨15, 0xff⟩ = 0xc000003f := by decide
theorem test_target_wraps : branchTarget 0xfffffffc 0 = 0x00000004 := by decide
/-- 40_classifier.md R57 with the example of 42_branch.md R72. -/
theorem test_computed_target : Block.computedTarget .branch 0x00008000 0x1b000010 = some 0x00008048 ∧
    Block.computedTarget .swi 0x00008000 0xef000011 = none := by decide

/-! ## The host -/

/-- P4: the second address is the base plus 4, here before the wrap. -/
theorem test_second_address : streamAddr 0xfffffff8 1 = 0xfffffffc ∧ streamAddr 0xfffffff8 2 = 0 := by decide
/-- 60_exceptions.md R142: bytes short of a chunk form no word. -/
theorem test_chunks_leftover : chunks [1, 2, 3, 4, 5] = ([⟨1, 2, 3, 4⟩], [5]) := by decide
/-- 70_reset_and_hazards.md R150, 10_state.md section 8. -/
theorem test_reset_outputs : State.reset.line = Block.line Config.params 0 0 := by decide
theorem test_reset_fetch_word : isNext (step (State.reset.withFetchWord 32 0x05900000)) = true := by decide

/-! ## Witnesses: states and operands that meet the hypotheses of each statement, each clause at both ends of its range -/

theorem test_witness_BranchWordsPrintTarget : 
    (inputs 0 0x0a000000).word &&& 0x0f000000 = 0x0a000000 ∧
    (inputs 0 0xfaffffff).word &&& 0x0f000000 = 0x0a000000 ∧
    (inputs 0 0x0b000000).word &&& 0x0f000000 = 0x0b000000 ∧
    (inputs 0 0xfbffffff).word &&& 0x0f000000 = 0x0b000000 := by decide
theorem test_witness_MultiplyWordsPrintRegisters : 
    (inputs 0 0x00000090).word &&& 0x0fe000f0 = 0x00000090 ∧
    (inputs 0 0xf01fff9f).word &&& 0x0fe000f0 = 0x00000090 ∧
    (inputs 0 0x00200090).word &&& 0x0fe000f0 = 0x00200090 ∧
    (inputs 0 0xf03fff9f).word &&& 0x0fe000f0 = 0x00200090 := by decide
theorem test_witness_SwiWordsPrintComment : 
    (inputs 0 0x0f000000).word &&& 0x0f000000 = 0x0f000000 ∧
    (inputs 0 0xffffffff).word &&& 0x0f000000 = 0x0f000000 := by decide
theorem test_witness_TwoOperandWordsPrint_immediate : 
    ∀ row ∈ ([(0, "and"), (1, "eor"), (2, "sub"), (3, "rsb"), (4, "add"), (5, "adc"), (6, "sbc"), (7, "rsc"), (12, "orr"), (14, "bic")] : List (BitVec 4 × String)),
      (inputs 0 (0x02000000 ||| row.1.zeroExtend 32 <<< 21)).word &&& 0x0fe00000 = 0x02000000 ||| (row.1.zeroExtend 32 <<< 21) ∧
      (inputs 0 (0xf21fffff ||| row.1.zeroExtend 32 <<< 21)).word &&& 0x0fe00000 = 0x02000000 ||| (row.1.zeroExtend 32 <<< 21) := by decide
theorem test_witness_TwoOperandWordsPrint_register : 
    ∀ row ∈ ([(0, "and"), (1, "eor"), (2, "sub"), (3, "rsb"), (4, "add"), (5, "adc"), (6, "sbc"), (7, "rsc"), (12, "orr"), (14, "bic")] : List (BitVec 4 × String)),
      (inputs 0 (0x00000000 ||| row.1.zeroExtend 32 <<< 21)).word &&& 0x0fe00000 = row.1.zeroExtend 32 <<< 21 ∧
      (inputs 0 (0x00000000 ||| row.1.zeroExtend 32 <<< 21)).word &&& 0x0fc000f0 ≠ 0x00000090 ∧
      (inputs 0 (0xf01fffff ||| row.1.zeroExtend 32 <<< 21)).word &&& 0x0fe00000 = row.1.zeroExtend 32 <<< 21 ∧
      (inputs 0 (0xf01fffff ||| row.1.zeroExtend 32 <<< 21)).word &&& 0x0fc000f0 ≠ 0x00000090 := by decide
theorem test_witness_ComparisonWordsPrint_immediate : 
    ∀ row ∈ ([(8, "tst"), (9, "teq"), (10, "cmp"), (11, "cmn")] : List (BitVec 4 × String)),
      (inputs 0 (0x02000000 ||| row.1.zeroExtend 32 <<< 21)).word &&& 0x0fe00000 = 0x02000000 ||| (row.1.zeroExtend 32 <<< 21) ∧
      (inputs 0 (0xf21fffff ||| row.1.zeroExtend 32 <<< 21)).word &&& 0x0fe00000 = 0x02000000 ||| (row.1.zeroExtend 32 <<< 21) := by decide
theorem test_witness_ComparisonWordsPrint_register : 
    ∀ row ∈ ([(8, "tst"), (9, "teq"), (10, "cmp"), (11, "cmn")] : List (BitVec 4 × String)),
      (inputs 0 (0x00000000 ||| row.1.zeroExtend 32 <<< 21)).word &&& 0x0fe00000 = row.1.zeroExtend 32 <<< 21 ∧
      (inputs 0 (0x00000000 ||| row.1.zeroExtend 32 <<< 21)).word &&& 0x0fc000f0 ≠ 0x00000090 ∧
      (inputs 0 (0xf01fffff ||| row.1.zeroExtend 32 <<< 21)).word &&& 0x0fe00000 = row.1.zeroExtend 32 <<< 21 ∧
      (inputs 0 (0xf01fffff ||| row.1.zeroExtend 32 <<< 21)).word &&& 0x0fc000f0 ≠ 0x00000090 := by decide
theorem test_witness_SingleDestinationWordsPrint_immediate : 
    ∀ row ∈ ([(13, "mov"), (15, "mvn")] : List (BitVec 4 × String)),
      (inputs 0 (0x02000000 ||| row.1.zeroExtend 32 <<< 21)).word &&& 0x0fe00000 = 0x02000000 ||| (row.1.zeroExtend 32 <<< 21) ∧
      (inputs 0 (0xf21fffff ||| row.1.zeroExtend 32 <<< 21)).word &&& 0x0fe00000 = 0x02000000 ||| (row.1.zeroExtend 32 <<< 21) := by decide
theorem test_witness_SingleDestinationWordsPrint_register : 
    ∀ row ∈ ([(13, "mov"), (15, "mvn")] : List (BitVec 4 × String)),
      (inputs 0 (0x00000000 ||| row.1.zeroExtend 32 <<< 21)).word &&& 0x0fe00000 = row.1.zeroExtend 32 <<< 21 ∧
      (inputs 0 (0x00000000 ||| row.1.zeroExtend 32 <<< 21)).word &&& 0x0fc000f0 ≠ 0x00000090 ∧
      (inputs 0 (0xf01fffff ||| row.1.zeroExtend 32 <<< 21)).word &&& 0x0fe00000 = row.1.zeroExtend 32 <<< 21 ∧
      (inputs 0 (0xf01fffff ||| row.1.zeroExtend 32 <<< 21)).word &&& 0x0fc000f0 ≠ 0x00000090 := by decide
theorem test_witness_SingleTransferWordsPrint : 
    (inputs 0 0x04000000).word &&& 0x0e100000 = 0x04000000 ∧
    (inputs 0 0xf5efffff).word &&& 0x0e100000 = 0x04000000 ∧
    (inputs 0 0x04100000).word &&& 0x0e100000 = 0x04100000 ∧
    (inputs 0 0xf5ffffff).word &&& 0x0e100000 = 0x04100000 ∧
    (inputs 0 0x06000000).word &&& 0x0e100000 = 0x06000000 ∧
    (inputs 0 0xf7efffff).word &&& 0x0e100000 = 0x06000000 ∧
    (inputs 0 0x06100000).word &&& 0x0e100000 = 0x06100000 ∧
    (inputs 0 0xf7ffffff).word &&& 0x0e100000 = 0x06100000 := by decide
theorem test_witness_BlockTransferWordsPrint : 
    (inputs 0 0x08000000).word &&& 0x0f900000 = 0x08000000 ∧
    (inputs 0 0xf86fffff).word &&& 0x0f900000 = 0x08000000 ∧
    (inputs 0 0x08800000).word &&& 0x0f900000 = 0x08800000 ∧
    (inputs 0 0xf8efffff).word &&& 0x0f900000 = 0x08800000 ∧
    (inputs 0 0x09000000).word &&& 0x0f900000 = 0x09000000 ∧
    (inputs 0 0xf96fffff).word &&& 0x0f900000 = 0x09000000 ∧
    (inputs 0 0x09800000).word &&& 0x0f900000 = 0x09800000 ∧
    (inputs 0 0xf9efffff).word &&& 0x0f900000 = 0x09800000 ∧
    (inputs 0 0x08100000).word &&& 0x0f900000 = 0x08100000 ∧
    (inputs 0 0xf87fffff).word &&& 0x0f900000 = 0x08100000 ∧
    (inputs 0 0x08900000).word &&& 0x0f900000 = 0x08900000 ∧
    (inputs 0 0xf8ffffff).word &&& 0x0f900000 = 0x08900000 ∧
    (inputs 0 0x09100000).word &&& 0x0f900000 = 0x09100000 ∧
    (inputs 0 0xf97fffff).word &&& 0x0f900000 = 0x09100000 ∧
    (inputs 0 0x09900000).word &&& 0x0f900000 = 0x09900000 ∧
    (inputs 0 0xf9ffffff).word &&& 0x0f900000 = 0x09900000 := by decide
theorem test_witness_UnknownWordsPrintMarker : 
    (inputs 0 0x0c000000).word &&& 0x0e000000 = 0x0c000000 ∧
    (inputs 0 0xfdffffff).word &&& 0x0e000000 = 0x0c000000 ∧
    (inputs 0 0x0e000000).word &&& 0x0f000000 = 0x0e000000 ∧
    (inputs 0 0xfeffffff).word &&& 0x0f000000 = 0x0e000000 := by decide
theorem test_witness_UnknownWordsPrintMarker_other : 
    ¬ ((inputs 0 0x00000000).word &&& 0x0e000000 = 0x0c000000 ∨ (inputs 0 0x00000000).word &&& 0x0f000000 = 0x0e000000) ∧
    ¬ ((inputs 0 0xfbffffff).word &&& 0x0e000000 = 0x0c000000 ∨ (inputs 0 0xfbffffff).word &&& 0x0f000000 = 0x0e000000) ∧
    ¬ ((inputs 0 0x0f000000).word &&& 0x0e000000 = 0x0c000000 ∨ (inputs 0 0x0f000000).word &&& 0x0f000000 = 0x0e000000) ∧
    ¬ ((inputs 0 0xffffffff).word &&& 0x0e000000 = 0x0c000000 ∨ (inputs 0 0xffffffff).word &&& 0x0f000000 = 0x0e000000) := by decide
theorem test_witness_ConditionDoesNotAffectFamily : 
    (inputs 0 0xf0000000).word.extractLsb' 28 4 = 15 ∧ classify (inputs 0 0xf0000000).word ≠ .unknown ∧
    (inputs 0 0xffffffff).word.extractLsb' 28 4 = 15 ∧ classify (inputs 0 0xffffffff).word ≠ .unknown := by decide
theorem test_witness_MultiplyIsTheOnlyOverlap : rawTest .multiply 0x00000090 = true ∧ rawTest .dataProcessing 0x00000090 = true := by decide
theorem test_witness_OnlyMultiplyBeforeDataProcessingMatters_first : 
    ([.multiply, .dataProcessing, .blockTransfer, .singleTransfer, .swi, .branch] : List Family).Perm
      [.branch, .multiply, .swi, .dataProcessing, .singleTransfer, .blockTransfer] ∧
    ([.multiply, .dataProcessing, .blockTransfer, .singleTransfer, .swi, .branch] : List Family).idxOf .multiply <
      ([.multiply, .dataProcessing, .blockTransfer, .singleTransfer, .swi, .branch] : List Family).idxOf .dataProcessing := by decide
theorem test_witness_OnlyMultiplyBeforeDataProcessingMatters_last : 
    ([.dataProcessing, .branch, .swi, .singleTransfer, .blockTransfer, .multiply] : List Family).Perm
      [.branch, .multiply, .swi, .dataProcessing, .singleTransfer, .blockTransfer] ∧
    ([.dataProcessing, .branch, .swi, .singleTransfer, .blockTransfer, .multiply] : List Family).idxOf .dataProcessing <
      ([.dataProcessing, .branch, .swi, .singleTransfer, .blockTransfer, .multiply] : List Family).idxOf .multiply ∧
    tMul 0x00200090 = true := by decide
theorem test_witness_DecodeInvertsEncode : Instr.wf (.andR .al false 15 15 ⟨15, true, .lsl, false, 15⟩) = true ∧ Instr.wf (.rawHigh6 0xfdffffff) = true ∧
    Instr.wf (.rawHigh7 0x0e000000) = true := by decide
theorem test_witness_DecodedRowHasSmallestPriority : (0xe0010392 : Word) &&& 0x0fe000f0 = 0x00000090 ∧ (0xe0010392 : Word) &&& 0x0fe00000 = 0 := by decide
theorem test_witness_DecIsTheDecimalNumeral : dec 0 = "0".toList ∧ (0 : Word) = 0 := by decide
theorem test_witness_ShiftPrintedExactlyWhenBitsNonzero : (0x0000000f : Word).extractLsb' 4 8 = 0 ∧ (0x00000010 : Word).extractLsb' 4 8 ≠ 0 ∧
    (0x00000fff : Word).extractLsb' 4 8 ≠ 0 := by decide
theorem test_witness_ShiftAmountIsFourBits : (0x00000100 : Word).extractLsb' 4 8 ≠ 0 ∧ ((0x00000100 : Word) ^^^ 0x80).extractLsb' 4 8 ≠ 0 ∧
    (0x00000fef : Word).extractLsb' 4 8 ≠ 0 ∧ (0x00000fef : Word).getLsbD 4 = false := by decide
theorem test_witness_RegisterListAscending : (0 : BitVec 16) = 0 ∧ (0x8001 : BitVec 16).getLsbD 15 = true := by decide
theorem test_witness_IgnoredBitsChangeNoText_multiply : (0x00000090 : Word) &&& 0x0fe000f0 = 0x00000090 ∧ (0x00000090 : Word) &&& 0xffff0fff = 0x0000f090 &&& 0xffff0fff := by decide
theorem test_witness_IgnoredBitsChangeNoText_comparison : 
    (0xe1500000 : Word) &&& 0x0d800000 = 0x01000000 ∧ (0xe1500000 : Word) &&& 0xffef0fff = 0xe140e000 &&& 0xffef0fff ∧
    (0xe1500000 : Word).extractLsb' 12 4 ≠ 15 ∧ (0xe140e000 : Word).extractLsb' 12 4 ≠ 15 := by decide
theorem test_witness_IgnoredBitsChangeNoText_comparison_p : 
    (0xe150f000 : Word) &&& 0x0d800000 = 0x01000000 ∧ (0xe150f000 : Word) &&& 0xffefffff = 0xe140f000 &&& 0xffefffff := by decide
theorem test_witness_IgnoredBitsChangeNoText_single_destination : 
    (0xe3a00001 : Word) &&& 0x0da00000 = 0x01a00000 ∧ (0xe3a00001 : Word) &&& 0xfff0ffff = 0xe3af0001 &&& 0xfff0ffff := by decide
theorem test_witness_TransferOptionBitsNotRendered : 
    (0xe7910002 : Word) &&& 0x0c000000 = 0x04000000 ∧ (0xe7910002 : Word) &&& 0xfe5fffff = 0xe6310002 &&& 0xfe5fffff ∧
    (0xe5910000 : Word) &&& 0x0e000000 = 0x04000000 ∧ (0xe5910000 : Word) &&& 0xfe5ff000 = 0xe4310fff &&& 0xfe5ff000 := by decide
theorem test_witness_LineLengthBounds : (textBound Config.vectorParams 0xf57ff000, textBound Config.vectorParams 0xfc000000) = (18, 14) := by decide
theorem test_witness_StepRunsDecodedInstruction : 
    (State.reset.load 0x1000 [⟨0xea, 0xff, 0xff, 0xfe⟩]).stream = ⟨0xea, 0xff, 0xff, 0xfe⟩ :: [] ∧
    decodeBytes [0xea, 0xff, 0xff, 0xfe] = .ok (.b .al 0xfffffe, []) ∧ Instr.wf (.b .al 0xfffffe) = true := by decide
theorem test_witness_StepWithNothingToPresent : State.reset.stream = [] := by decide
theorem test_witness_OutputsForgetHistory : (inputs 4 5).addr = ((inputs 4 5).load 9 []).addr ∧ (inputs 4 5).word = ((inputs 4 5).load 9 []).word := by decide
theorem test_witness_WordIsBigEndian : (State.reset.load 0 [⟨0xff, 0, 0, 1⟩]).stream = ⟨0xff, 0, 0, 1⟩ :: [] := by decide
theorem test_witness_AddressesStepByFour : (State.reset.load 0xfffffffc [⟨0, 0, 0, 0⟩, ⟨0xff, 0, 0, 1⟩]).stream = ⟨0, 0, 0, 0⟩ :: ⟨0xff, 0, 0, 1⟩ :: [] := by decide
theorem test_witness_StepKeepsTheInvariant : State.reset.Inv ∧ isNext (step State.reset) = true := 
  ⟨⟨by unfold State.Settled; decide, rfl, fun _ h => absurd h (Nat.not_lt_zero _), fun h => absurd h (Nat.lt_irrefl 0)⟩,
    by decide⟩
/-- A host in the middle of a stream that wraps: one line received, one word to come, a branch (42_branch.md R70, with the
condition `al`). -/
def midStream : State :=
  { State.reset with
    baseAddr := 0xfffffffc, presented := 1, stream := [⟨0xef, 0, 0, 0x11⟩], addr := 0xfffffffc, word := 0xea000000
    family := .branch, fields := .branch ⟨.al, false, 0⟩, target := some 4
    lines := ["fffffffc : ea000000 : b 00000004".toList], line := "fffffffc : ea000000 : b 00000004".toList }
theorem test_witness_StepKeepsTheInvariant_midStream : midStream.Inv ∧ isNext (step midStream) = true := by
  refine ⟨⟨by unfold State.Settled; decide, rfl, fun k h => ⟨0xea000000, ?_⟩, fun _ => by decide⟩, by decide⟩
  obtain rfl : k = 0 := by simpa [midStream] using h
  decide
theorem test_witness_AddressReachesOnlyLabelAndTarget : 
    isNext (exec (.b .al 0) (inputs 0 0xea000000)) = true ∧ isNext (exec (.swi .al 0) (inputs 0 0xef000000)) = true := by decide

end Sys2Proof.Tests
end

/-! PROOFS. The state (10_state.md): what an evaluation reads of it (O51), and its constant tables (O32). -/

namespace Sys2Proof.Machine

/-- What a meaning may do (10_state.md R10): it drives the output ports, and the values it drives are fixed but for the
`addr` port (42_branch.md R70 is the one rule that reads it).  Of the rest of the state it reads nothing. -/
def DrivesFromAddr (meaning : State → Result) : Prop :=
  ∃ (fam : Family) (f : Fields) (text : Word → Text) (target : Word → Option Word),
    ∀ s : State, meaning s = .next (s.drive fam f (text s.addr) (target s.addr))

/-! ## The shared renderers drive the outputs from the address alone -/

/-- A meaning that does not read `addr` either. -/
theorem DrivesFromAddr.of_const {meaning : State → Result} (fam : Family) (f : Fields) (text : Text)
    (h : ∀ s, meaning s = .next (s.drive fam f text)) : DrivesFromAddr meaning :=
  ⟨fam, f, fun _ => text, fun _ => none, h⟩

theorem branch_drives (name : Text) (link : Bool) (c : Cond) (off24 : BitVec 24) :
    DrivesFromAddr (branch name link c off24) :=
  ⟨.branch, .branch ⟨c, link, off24⟩,
    fun addr => name ++ condText c ++ " ".toList ++ hex8 (branchTarget addr off24),
    fun addr => some (branchTarget addr off24), branch_eq name link c off24⟩

theorem multiply_drives (name : Text) (acc : Bool) (c : Cond) (sf : Bool) (rd rn rs rm : Reg) :
    DrivesFromAddr (multiply name acc c sf rd rn rs rm) :=
  .of_const _ _ _ (multiply_eq name acc c sf rd rn rs rm)

theorem execSwi_drives (c : Cond) (comment24 : BitVec 24) : DrivesFromAddr (execSwi c comment24) :=
  .of_const _ _ _ fun s => settle_eq s ..

theorem twoOperand_drives (op : DpOp) (c : Cond) (sf : Bool) (rn rd : Reg) (op2 : Operand2) :
    DrivesFromAddr (twoOperand op c sf rn rd op2) :=
  .of_const _ _ _ (twoOperand_eq op c sf rn rd op2)

theorem comparison_drives (op : DpOp) (c : Cond) (sf : Bool) (rn rd : Reg) (op2 : Operand2) :
    DrivesFromAddr (comparison op c sf rn rd op2) :=
  .of_const _ _ _ (comparison_eq op c sf rn rd op2)

theorem singleDestination_drives (op : DpOp) (c : Cond) (sf : Bool) (rn rd : Reg) (op2 : Operand2) :
    DrivesFromAddr (singleDestination op c sf rn rd op2) :=
  .of_const _ _ _ (singleDestination_eq op c sf rn rd op2)

theorem singleTransfer_drives (name : Text) (load : Bool) (c : Cond) (t : TransferBits) (rn rd : Reg) (off : Offset) :
    DrivesFromAddr (singleTransfer name load c t rn rd off) :=
  .of_const _ _ _ (singleTransfer_eq name load c t rn rd off)

theorem blockTransfer_drives (name : Text) (load : Bool) (m : Mode) (c : Cond) (sf wb : Bool) (rn : Reg)
    (list : BitVec 16) : DrivesFromAddr (blockTransfer name load m c sf wb rn list) :=
  .of_const _ _ _ (blockTransfer_eq name load m c sf wb rn list)

theorem rawWord_drives (w : Word) : DrivesFromAddr (rawWord w) := .of_const _ _ _ (rawWord_eq w)

/-! ## Every instruction does -/

theorem exec_drives (i : Instr) : DrivesFromAddr (exec i) := by
  cases i with
  | b | bl => exact branch_drives ..
  | mul | mla => exact multiply_drives ..
  | swi => exact execSwi_drives ..
  | andR | eorR | subR | rsbR | addR | adcR | sbcR | rscR | orrR | bicR => exact twoOperand_drives ..
  | andI | eorI | subI | rsbI | addI | adcI | sbcI | rscI | orrI | bicI => exact twoOperand_drives ..
  | tstR | teqR | cmpR | cmnR | tstI | teqI | cmpI | cmnI => exact comparison_drives ..
  | movR | mvnR | movI | mvnI => exact singleDestination_drives ..
  | strI | ldrI | strR | ldrR => exact singleTransfer_drives ..
  | stmda | stmia | stmdb | stmib | ldmda | ldmia | ldmdb | ldmib => exact blockTransfer_drives ..
  | rawHigh6 | rawHigh7 => exact rawWord_drives ..

/-- Two drives of the same values settle to the same outputs where the input ports agree. -/
theorem State.drive_outputs_congr {s t : State} (haddr : s.addr = t.addr) (hword : s.word = t.word)
    (fam : Family) (f : Fields) (text : Word → Text) (target : Word → Option Word) :
    (s.drive fam f (text s.addr) (target s.addr)).outputs = (t.drive fam f (text t.addr) (target t.addr)).outputs := by
  rw [State.drive_outputs, State.drive_outputs, haddr, hword]

/-- Settles O51: a meaning drives the outputs from the `addr` port alone, and the line adds only the two input ports. -/
theorem outputsForgetHistory : Obligations.OutputsForgetHistory := by
  intro s t haddr hword
  obtain ⟨fam, f, text, target, hexec⟩ := exec_drives (decode t.word)
  exact ⟨_, _, hword ▸ hexec s, hexec t, State.drive_outputs_congr haddr hword fam f text target⟩

/-! ## The constant tables by index (10_state.md R15 to R17) -/

/-- Settles O32: three closed tables, evaluated. -/
theorem mnemonicShiftAndModeNames : Obligations.MnemonicShiftAndModeNames :=
  ⟨by decide, by decide, by decide⟩

end Sys2Proof.Machine

/-! PROOFS. The memory contract (20_memory.md): the word that a step presents (O53). -/

namespace Sys2Proof.Machine

/-- R20 in shifts and ors. -/
theorem assemble_eq_shiftLeft_or (k : Chunk) :
    assemble k = (k.b0.zeroExtend 32 <<< 24) ||| (k.b1.zeroExtend 32 <<< 16) ||| (k.b2.zeroExtend 32 <<< 8) |||
      k.b3.zeroExtend 32 :=
  calc assemble k
    _ = (k.b0 ++ k.b1 ++ k.b2 ++ k.b3).setWidth 32 := (BitVec.setWidth_eq _).symm
    _ = _ := BitVec.setWidth_append_append_append_eq_shiftLeft_setWidth_or

/-- A step with a chunk to present: the presented word's meaning runs on the presented state, and the host receives the
line. -/
theorem step_cons {s t : State} {k : Chunk} {rest : List Chunk} (hstream : s.stream = k :: rest)
    (hexec : exec (decode (assemble k)) (s.present k rest) = .next t) : step s = .next t.deliver := by
  rw [step, State.fetch_cons s hstream, State.present_word, hexec, finish_cons s t hstream]

/-- What such a step answers, whatever the instruction: only outputs are driven between presenting and delivering. -/
theorem step_cons_drives {s : State} {k : Chunk} {rest : List Chunk} (hstream : s.stream = k :: rest) :
    ∃ fam f text target, step s = .next ((s.present k rest).drive fam f text target).deliver := by
  obtain ⟨fam, f, text, target, hexec⟩ := exec_drives (decode (assemble k))
  exact ⟨fam, f, _, _, step_cons hstream (hexec _)⟩

/-- Settles O53: driving the outputs and delivering the line keep the presented word and the rest of the queue. -/
theorem wordIsBigEndian : Obligations.WordIsBigEndian := by
  intro s b0 b1 b2 b3 rest hstream
  obtain ⟨fam, f, text, target, hstep⟩ := step_cons_drives hstream
  refine ⟨_, hstep, ?_, ?_⟩
  · simp only [State.deliver_stream, State.drive_stream, State.present_stream]
  · simp only [State.deliver_word, State.drive_word, State.present_word, assemble_eq_shiftLeft_or]

end Sys2Proof.Machine

/-! PROOFS. The encoding (30_encoding.md): the condition field reaches the mnemonic and nothing of the classification
(O26). -/

namespace Sys2Proof

/-! ## Classification reads bits 27:0 (R46) -/

theorem high3_and_low28 (w : Word) : high3 (w &&& 0x0fffffff) = high3 w :=
  calc high3 (w &&& 0x0fffffff)
    _ = high3 w &&& BitVec.allOnes 3 := BitVec.extractLsb'_and
    _ = high3 w := BitVec.and_allOnes

theorem tBranch_and_low28 (w : Word) : tBranch (w &&& 0x0fffffff) = tBranch w := by
  simp only [tBranch, high3_and_low28]

theorem tDp_and_low28 (w : Word) : tDp (w &&& 0x0fffffff) = tDp w := by
  simp only [tDp, high3_and_low28]

theorem tSdt_and_low28 (w : Word) : tSdt (w &&& 0x0fffffff) = tSdt w := by
  simp only [tSdt, high3_and_low28]

theorem tBdt_and_low28 (w : Word) : tBdt (w &&& 0x0fffffff) = tBdt w := by
  simp only [tBdt, high3_and_low28]

theorem tMul_and_low28 (w : Word) : tMul (w &&& 0x0fffffff) = tMul w := by
  rw [tMul, BitVec.and_assoc]; rfl

theorem tSwi_and_low28 (w : Word) : tSwi (w &&& 0x0fffffff) = tSwi w := by
  rw [tSwi, BitVec.and_assoc]; rfl

theorem classify_and_low28 (w : Word) : classify (w &&& 0x0fffffff) = classify w := by
  simp only [classify, tBranch_and_low28, tMul_and_low28, tSwi_and_low28, tDp_and_low28, tSdt_and_low28, tBdt_and_low28]

/-- Other bits 31:28 do not change the family. -/
theorem classify_and_low28_or {high : Word} (hhigh : high &&& 0x0fffffff = 0#32) (w : Word) :
    classify (w &&& 0x0fffffff ||| high) = classify w := by
  have hlow : (w &&& 0x0fffffff ||| high) &&& 0x0fffffff = w &&& 0x0fffffff := by
    rw [BitVec.and_or_distrib_right, hhigh, BitVec.or_zero, BitVec.and_assoc, BitVec.and_self]
  rw [← classify_and_low28, hlow, classify_and_low28]

theorem condField_and_low28 (c : BitVec 4) : (c.zeroExtend 32 <<< 28) &&& 0x0fffffff = 0#32 := by
  revert c; decide

end Sys2Proof

namespace Sys2Proof.Machine

/-! ## The text of every family but Unknown begins with a mnemonic and the condition -/

/-- The mnemonics of the opcode table (R43), the block transfers without their mode. -/
def mnemonics : List String :=
  ["b", "bl", "mul", "mla", "swi", "and", "eor", "sub", "rsb", "add", "adc", "sbc", "rsc", "tst", "teq", "cmp", "cmn",
    "orr", "mov", "bic", "mvn", "ldr", "str", "ldm", "stm"]

/-- The meaning drives the family `fam` and a text that begins with a mnemonic and the suffix of `c`. -/
structure PrintsMnemonic (fam : Family) (c : Cond) (meaning : State → Result) : Prop where
  drives : ∀ s : State, ∃ f text target, meaning s = .next (s.drive fam f text target) ∧
    ∃ name ∈ mnemonics, name.toList ++ condText c <+: text

theorem dpName_eq_mnemonic (op : DpOp) : ∃ name ∈ mnemonics, dpName op = name.toList := by
  cases op <;> decide

section Renderers
variable {name : String} (hname : name ∈ mnemonics)
include hname

theorem branch_prints (link : Bool) (c : Cond) (off24 : BitVec 24) :
    PrintsMnemonic .branch c (branch name.toList link c off24) :=
  ⟨fun s => ⟨_, _, _, branch_eq .., name, hname, by simp⟩⟩

theorem multiply_prints (acc : Bool) (c : Cond) (sf : Bool) (rd rn rs rm : Reg) :
    PrintsMnemonic .multiply c (multiply name.toList acc c sf rd rn rs rm) :=
  ⟨fun s => ⟨_, _, _, multiply_eq .., name, hname, by simp⟩⟩

theorem singleTransfer_prints (load : Bool) (c : Cond) (t : TransferBits) (rn rd : Reg) (off : Offset) :
    PrintsMnemonic .singleTransfer c (singleTransfer name.toList load c t rn rd off) :=
  ⟨fun s => ⟨_, _, _, singleTransfer_eq .., name, hname, by simp⟩⟩

theorem blockTransfer_prints (load : Bool) (m : Mode) (c : Cond) (sf wb : Bool) (rn : Reg) (list : BitVec 16) :
    PrintsMnemonic .blockTransfer c (blockTransfer name.toList load m c sf wb rn list) :=
  ⟨fun s => ⟨_, _, _, blockTransfer_eq .., name, hname, by simp⟩⟩

end Renderers

theorem execSwi_prints (c : Cond) (comment24 : BitVec 24) : PrintsMnemonic .swi c (execSwi c comment24) :=
  ⟨fun s => ⟨_, _, _, settle_eq .., "swi", by decide, by simp⟩⟩

theorem twoOperand_prints (op : DpOp) (c : Cond) (sf : Bool) (rn rd : Reg) (op2 : Operand2) :
    PrintsMnemonic .dataProcessing c (twoOperand op c sf rn rd op2) := by
  obtain ⟨name, hname, hop⟩ := dpName_eq_mnemonic op
  exact ⟨fun s => ⟨_, _, _, twoOperand_eq .., name, hname, by simp [hop]⟩⟩

theorem comparison_prints (op : DpOp) (c : Cond) (sf : Bool) (rn rd : Reg) (op2 : Operand2) :
    PrintsMnemonic .dataProcessing c (comparison op c sf rn rd op2) := by
  obtain ⟨name, hname, hop⟩ := dpName_eq_mnemonic op
  exact ⟨fun s => ⟨_, _, _, comparison_eq .., name, hname, by simp [hop]⟩⟩

theorem singleDestination_prints (op : DpOp) (c : Cond) (sf : Bool) (rn rd : Reg) (op2 : Operand2) :
    PrintsMnemonic .dataProcessing c (singleDestination op c sf rn rd op2) := by
  obtain ⟨name, hname, hop⟩ := dpName_eq_mnemonic op
  exact ⟨fun s => ⟨_, _, _, singleDestination_eq .., name, hname, by simp [hop]⟩⟩

/-! ## Per family, on the word -/

theorem decodeBranch_prints (w : Word) : PrintsMnemonic .branch (condOf w) (exec (decodeBranch w)) := by
  unfold decodeBranch
  split <;> exact branch_prints (by decide) ..

theorem decodeMultiply_prints (w : Word) : PrintsMnemonic .multiply (condOf w) (exec (decodeMultiply w)) := by
  unfold decodeMultiply
  split <;> exact multiply_prints (by decide) ..

theorem dpReg_prints (op : DpOp) (c : Cond) (sf : Bool) (rn rd : Reg) (o : ShiftedReg) :
    PrintsMnemonic .dataProcessing c (exec (dpReg op c sf rn rd o)) := by
  cases op with
  | and | eor | sub | rsb | add | adc | sbc | rsc | orr | bic => exact twoOperand_prints ..
  | tst | teq | cmp | cmn => exact comparison_prints ..
  | mov | mvn => exact singleDestination_prints ..

theorem dpImm_prints (op : DpOp) (c : Cond) (sf : Bool) (rn rd : Reg) (o : RotImm) :
    PrintsMnemonic .dataProcessing c (exec (dpImm op c sf rn rd o)) := by
  cases op with
  | and | eor | sub | rsb | add | adc | sbc | rsc | orr | bic => exact twoOperand_prints ..
  | tst | teq | cmp | cmn => exact comparison_prints ..
  | mov | mvn => exact singleDestination_prints ..

theorem decodeDp_prints (w : Word) : PrintsMnemonic .dataProcessing (condOf w) (exec (decodeDp w)) := by
  unfold decodeDp
  split
  · exact dpImm_prints ..
  · exact dpReg_prints ..

theorem decodeSdt_prints (w : Word) : PrintsMnemonic .singleTransfer (condOf w) (exec (decodeSdt w)) := by
  unfold decodeSdt
  split <;> exact singleTransfer_prints (by decide) ..

theorem decodeBdt_prints (w : Word) : PrintsMnemonic .blockTransfer (condOf w) (exec (decodeBdt w)) := by
  unfold decodeBdt
  split <;> exact blockTransfer_prints (by decide) ..

/-- The family of the decoded word's outputs is the classifier's, and its text begins with a mnemonic and the condition of
bits 31:28. -/
theorem decode_prints (w : Word) (hfam : classify w ≠ .unknown) :
    PrintsMnemonic (classify w) (condOf w) (exec (decode w)) := by
  unfold decode
  cases h : classify w with
  | branch => exact decodeBranch_prints w
  | multiply => exact decodeMultiply_prints w
  | swi => exact execSwi_prints ..
  | dataProcessing => exact decodeDp_prints w
  | singleTransfer => exact decodeSdt_prints w
  | blockTransfer => exact decodeBdt_prints w
  | unknown => exact absurd h hfam

/-! ## Condition 15 -/

theorem condOf_eq_nv {w : Word} (hcond : w.extractLsb' 28 4 = 15) : condOf w = .nv := by
  rw [condOf, hcond]; rfl

/-- The text stands after the two numbers and the two separators (49_fallback_and_line.md R134). -/
theorem assembleLine_drop_22 (addr word : Word) (text : Text) : (assembleLine addr word text).drop 22 = text :=
  List.drop_left' rfl

/-- Settles O26: the raw tests read bits 27:0 only, and every renderer but the raw word's prints the condition directly
after the mnemonic. -/
theorem conditionDoesNotAffectFamily : Obligations.ConditionDoesNotAffectFamily := by
  refine ⟨fun c => classify_and_low28_or (condField_and_low28 c), fun s hcond hfam => ?_⟩
  obtain ⟨f, text, target, hexec, name, hname, rest, rfl⟩ := (decode_prints s.word hfam).drives s
  refine ⟨_, hexec, rfl, name, hname, rest, ?_⟩
  rw [State.drive_line, assembleLine_drop_22, condOf_eq_nv hcond]
  rfl

end Sys2Proof.Machine

/-! PROOFS. The classifier (40_classifier.md): the raw tests of R51 in their mask and bit-field forms (O22). -/

namespace Sys2Proof

/-! ## A mask test is a field test -/

/-- A mask of `len` ones from bit `start` keeps that field, at its place. -/
theorem and_allOnes_shiftLeft_eq_extractLsb' {n : Nat} (w : BitVec n) (start len : Nat) :
    w &&& (BitVec.allOnes len).setWidth n <<< start = (w.extractLsb' start len).setWidth n <<< start := by
  ext i hi
  by_cases hstart : i < start
  · simp [hstart]
  · have hbit : start + (i - start) = i := by omega
    simp [hstart, hbit, hi, Bool.and_comm]

/-- `word & 0x0e000000` is `high3` at bits 27:25. -/
theorem and_high3Mask (w : Word) : w &&& (0x0e000000 : Word) = (high3 w).setWidth 32 <<< 25 :=
  and_allOnes_shiftLeft_eq_extractLsb' w 25 3

/-- Bits 27:26 are the two upper bits of `high3`. -/
theorem extractLsb'_26_2_eq_high3 (w : Word) : w.extractLsb' 26 2 = (high3 w).extractLsb' 1 2 := by
  ext i hi
  have hlt : 1 + i < 3 := by omega
  have hbit : 25 + (1 + i) = 26 + i := by omega
  simp [high3, hlt, hbit]

/-! ## The raw tests of R51, each in its other form -/

theorem tBranch_iff_mask (w : Word) : tBranch w = true ↔ w &&& 0x0e000000 = 0x0a000000 := by
  have hfield : ∀ h : BitVec 3, (h == 0b101) = true ↔ h.setWidth 32 <<< 25 = 0x0a000000#32 := by decide
  rw [tBranch, and_high3Mask]
  exact hfield (high3 w)

theorem tMul_iff_mask (w : Word) : tMul w = true ↔ w &&& 0x0fc000f0 = 0x00000090 := beq_iff_eq

theorem tSwi_iff_mask (w : Word) : tSwi w = true ↔ w &&& 0x0f000000 = 0x0f000000 := beq_iff_eq

theorem tDp_iff_bits (w : Word) : tDp w = true ↔ w.extractLsb' 26 2 = 0b00 := by
  have hfield : ∀ h : BitVec 3, (h == 0b000 || h == 0b001) = true ↔ h.extractLsb' 1 2 = 0b00 := by decide
  rw [tDp, extractLsb'_26_2_eq_high3]
  exact hfield (high3 w)

theorem tSdt_iff_bits (w : Word) : tSdt w = true ↔ w.extractLsb' 26 2 = 0b01 := by
  have hfield : ∀ h : BitVec 3, (h == 0b010 || h == 0b011) = true ↔ h.extractLsb' 1 2 = 0b01 := by decide
  rw [tSdt, extractLsb'_26_2_eq_high3]
  exact hfield (high3 w)

theorem tBdt_iff_bits (w : Word) : tBdt w = true ↔ w.extractLsb' 25 3 = 0b100 := beq_iff_eq

/-- Settles O22: the chain of R52, each test of R51 rewritten to its other form. -/
theorem classifierTakesFirstTest : Obligations.ClassifierTakesFirstTest := by
  intro w
  simp only [classify, tBranch_iff_mask, tMul_iff_mask, tSwi_iff_mask, tDp_iff_bits, tSdt_iff_bits, tBdt_iff_bits]

end Sys2Proof

/-! PROOFS. The text primitives (41_condition_and_text.md): the hexadecimal numeral (O33) and the register names (O35). -/

namespace Sys2Proof.Machine

/-! ## One hexadecimal digit -/

/-- Every digit character is one of `0123456789abcdef`, at the index of its value. -/
theorem digitChar_mem_hexDigits {d : Nat} (hd : d < 16) :
    digitChar d ∈ "0123456789abcdef".toList ∧ "0123456789abcdef".toList.idxOf (digitChar d) = d := by
  revert d
  decide

theorem digitChar_mem (b : BitVec 4) : digitChar b.toNat ∈ "0123456789abcdef".toList :=
  (digitChar_mem_hexDigits b.isLt).1

theorem idxOf_digitChar (b : BitVec 4) : "0123456789abcdef".toList.idxOf (digitChar b.toNat) = b.toNat :=
  (digitChar_mem_hexDigits b.isLt).2

/-! ## Eight hexadecimal digits -/

/-- Reading `k` four-bit fields of `v`, the highest first, appends the low `4 * k` bits of `v` to what was read. -/
theorem foldl_extractLsb'_four {n : Nat} (v : BitVec n) (k acc : Nat) :
    ((List.range k).reverse.map (4 * ·)).foldl (fun r lo => 16 * r + (v.extractLsb' lo 4).toNat) acc =
      16 ^ k * acc + v.toNat % 16 ^ k := by
  induction k generalizing acc with
  | zero => simp [Nat.mod_one]
  | succ k ih =>
    have hdigit : (v.extractLsb' (4 * k) 4).toNat = v.toNat / 16 ^ k % 16 := by
      rw [BitVec.extractLsb'_toNat, Nat.shiftRight_eq_div_pow, Nat.pow_mul]
    rw [List.range_succ, List.reverse_concat, List.map_cons, List.foldl_cons, ih, hdigit, Nat.mod_pow_succ]
    ring

theorem hex8_digit_mem {v : Word} {ch : Char} (hch : ch ∈ hex8 v) : ch ∈ "0123456789abcdef".toList := by
  obtain ⟨lo, -, rfl⟩ := List.mem_map.mp hch
  exact digitChar_mem _

theorem hex8_value (v : Word) :
    (hex8 v).foldl (fun n ch => 16 * n + "0123456789abcdef".toList.idxOf ch) 0 = v.toNat := by
  have hpositions : [28, 24, 20, 16, 12, 8, 4, 0] = (List.range 8).reverse.map (4 * ·) := rfl
  have hbound : v.toNat < 16 ^ 8 := v.isLt
  simp only [hex8, List.foldl_map, idxOf_digitChar]
  rw [hpositions, foldl_extractLsb'_four, Nat.mod_eq_of_lt hbound, Nat.mul_zero, Nat.zero_add]

/-- Settles O33: each digit names its four-bit field, and the eight fields from the top make up the word. -/
theorem hex8IsTheHexNumeral : Obligations.Hex8IsTheHexNumeral :=
  fun v => ⟨hex8_length v, fun _ => hex8_digit_mem, hex8_value v⟩

/-! ## The register names -/

/-- Settles O35: a closed list of sixteen names, evaluated. -/
theorem registerNames : Obligations.RegisterNames := by
  unfold Obligations.RegisterNames
  decide

end Sys2Proof.Machine

/-! PROOFS. The multiply words (43_multiply.md): what a word of the `mul` or the `mla` row prints (O14). -/

namespace Sys2Proof

/-! ## What a mask test says about a smaller mask and about one bit -/

theorem and_submask_eq {n : Nat} {w mask pattern : BitVec n} (hrow : w &&& mask = pattern) (sub : BitVec n) :
    w &&& (mask &&& sub) = pattern &&& sub := by
  rw [← BitVec.and_assoc, hrow]

theorem getLsbD_of_and_eq {n i : Nat} {w mask pattern : BitVec n} (hrow : w &&& mask = pattern)
    (hmask : mask.getLsbD i = true) : w.getLsbD i = pattern.getLsbD i := by
  rw [← hrow, BitVec.getLsbD_and, hmask, Bool.and_true]

/-! ## The words of family Multiply (R51, R52) -/

/-- Bits 27:25 are 000 in a Multiply word and 101 in a Branch word. -/
theorem not_tBranch_of_tMul {w : Word} (hmul : tMul w = true) : ¬ tBranch w = true := by
  intro hbranch
  have hzero : w &&& 0x0e000000 = 0#32 := and_submask_eq ((tMul_iff_mask w).mp hmul) 0x0e000000
  have hfive : w &&& 0x0e000000 = 0x0a000000#32 := (tBranch_iff_mask w).mp hbranch
  exact absurd (hzero.symm.trans hfive) (by decide)

theorem classify_of_tMul {w : Word} (hmul : tMul w = true) : classify w = .multiply := by
  rw [classify, if_neg (not_tBranch_of_tMul hmul), if_pos hmul]

theorem decode_of_tMul {w : Word} (hmul : tMul w = true) : decode w = decodeMultiply w := by
  rw [decode, classify_of_tMul hmul]

/-! ## The two rows: the Multiply pattern and the accumulate bit (R32, R76, R77) -/

theorem decode_of_mulRow {w : Word} (hrow : w &&& 0x0fe000f0 = 0x00000090) :
    decode w = .mul (condOf w) (w.getLsbD 20) (w.extractLsb' 16 4) (w.extractLsb' 12 4) (w.extractLsb' 8 4)
      (w.extractLsb' 0 4) := by
  have hmul : tMul w = true := (tMul_iff_mask w).mpr (and_submask_eq hrow 0x0fc000f0)
  have hacc : ¬ w.getLsbD 21 = true := Bool.eq_false_iff.mp (getLsbD_of_and_eq hrow (by decide))
  rw [decode_of_tMul hmul, decodeMultiply, if_neg hacc]

theorem decode_of_mlaRow {w : Word} (hrow : w &&& 0x0fe000f0 = 0x00200090) :
    decode w = .mla (condOf w) (w.getLsbD 20) (w.extractLsb' 16 4) (w.extractLsb' 12 4) (w.extractLsb' 8 4)
      (w.extractLsb' 0 4) := by
  have hmul : tMul w = true := (tMul_iff_mask w).mpr (and_submask_eq hrow 0x0fc000f0)
  have hacc : w.getLsbD 21 = true := getLsbD_of_and_eq hrow (by decide)
  rw [decode_of_tMul hmul, decodeMultiply, if_pos hacc]

end Sys2Proof

namespace Sys2Proof.Machine

/-! ## The renderer in the terms of the statements -/

theorem setFlagsLetter_eq_toList (sf : Bool) : setFlagsLetter sf = (if sf then "s" else "").toList := by
  cases sf <;> rfl

/-- R75: the renderer answers the outcome the statements describe. -/
theorem multiply_eq_evaluated (name : Text) (acc : Bool) (c : Cond) (sf : Bool) (rd rn rs rm : Reg) (s : State) :
    multiply name acc c sf rd rn rs rm s = evaluated s .multiply (.multiply ⟨c, acc, sf, rd, rm, rs, rn⟩)
      (name ++ condText c ++ (if sf then "s" else "").toList ++ " ".toList ++ reg rd ++ ",".toList ++ reg rm ++
        ",".toList ++ reg rs ++ if acc then ",".toList ++ reg rn else []) := by
  rw [multiply_eq, setFlagsLetter_eq_toList]; rfl

/-- Settles O14: the row's mask fixes the family and the accumulate bit, and the renderer prints the fields decoded. -/
theorem multiplyWordsPrintRegisters : Obligations.MultiplyWordsPrintRegisters := by
  intro s w out
  refine ⟨fun hmul => ?_, fun hmla => ?_⟩
  · rw [decode_of_mulRow hmul]
    exact ⟨_, multiply_eq_evaluated "mul".toList false ..⟩
  · rw [decode_of_mlaRow hmla]
    exact ⟨_, multiply_eq_evaluated "mla".toList true ..⟩

end Sys2Proof.Machine

/-! PROOFS. The software-interrupt words (44_swi.md): what a word whose bits 27:24 are 1111 prints (O15). -/

namespace Sys2Proof

/-! ## The words of family Swi (R51, R52): the two tests tried before theirs fail -/

/-- Two mask tests of one word agree on the bits that both masks cover. -/
theorem mask_tests_agree {n : Nat} {w mask pattern mask' pattern' : BitVec n} (hrow : w &&& mask = pattern)
    (hrow' : w &&& mask' = pattern') : pattern &&& mask' = pattern' &&& mask := by
  rw [← and_submask_eq hrow mask', ← and_submask_eq hrow' mask, BitVec.and_comm mask mask']

/-- Bits 27:25 are 111 in a Swi word and 101 in a Branch word. -/
theorem not_tBranch_of_tSwi {w : Word} (hswi : tSwi w = true) : ¬ tBranch w = true := fun hbranch =>
  absurd (mask_tests_agree ((tSwi_iff_mask w).mp hswi) ((tBranch_iff_mask w).mp hbranch)) (by decide)

/-- Bits 27:24 are 1111 in a Swi word, and bits 27:22 are zero in a Multiply word. -/
theorem not_tMul_of_tSwi {w : Word} (hswi : tSwi w = true) : ¬ tMul w = true := fun hmul =>
  absurd (mask_tests_agree ((tSwi_iff_mask w).mp hswi) ((tMul_iff_mask w).mp hmul)) (by decide)

theorem classify_of_tSwi {w : Word} (hswi : tSwi w = true) : classify w = .swi := by
  rw [classify, if_neg (not_tBranch_of_tSwi hswi), if_neg (not_tMul_of_tSwi hswi), if_pos hswi]

theorem decode_of_tSwi {w : Word} (hswi : tSwi w = true) : decode w = .swi (condOf w) (w.extractLsb' 0 24) := by
  rw [decode, classify_of_tSwi hswi, decodeSwi]

end Sys2Proof

namespace Sys2Proof.Machine

/-! ## The renderer in the terms of the statements -/

/-- R80: the renderer answers the outcome the statements describe; no field but the outputs changes. -/
theorem execSwi_eq_evaluated (c : Cond) (comment24 : BitVec 24) (s : State) :
    execSwi c comment24 s = evaluated s .swi (.swi ⟨c, comment24⟩)
      ("swi".toList ++ condText c ++ " ".toList ++ dec (comment24.zeroExtend 32)) :=
  settle_eq ..

/-- Settles O15: the mask fixes the family, and the renderer prints the comment decoded. -/
theorem swiWordsPrintComment : Obligations.SwiWordsPrintComment := by
  intro s hrow
  rw [decode_of_tSwi ((tSwi_iff_mask s.word).mpr hrow)]
  exact ⟨_, execSwi_eq_evaluated ..⟩

end Sys2Proof.Machine

/-! PROOFS. The single-data-transfer words (47_single_data_transfer.md): what a word of the four `str` and `ldr`
rows prints (O19). -/

namespace Sys2Proof

/-! ## The words of family SingleTransfer (R51, R52): the four tests tried before theirs fail -/

/-- `word[27:26] = 01`, as a mask test. -/
theorem tSdt_iff_mask (w : Word) : tSdt w = true ↔ w &&& 0x0c000000 = 0x04000000 := by
  have hmask : w &&& (0x0c000000 : Word) = (w.extractLsb' 26 2).setWidth 32 <<< 26 :=
    and_allOnes_shiftLeft_eq_extractLsb' w 26 2
  have hfield : ∀ h : BitVec 2, h = 0b01 ↔ h.setWidth 32 <<< 26 = 0x04000000#32 := by decide
  rw [tSdt_iff_bits, hmask]
  exact hfield _

/-- Bits 27:26 are 01 in a SingleTransfer word and 10 in a Branch word. -/
theorem not_tBranch_of_tSdt {w : Word} (hsdt : tSdt w = true) : ¬ tBranch w = true := fun hbranch =>
  absurd (mask_tests_agree ((tSdt_iff_mask w).mp hsdt) ((tBranch_iff_mask w).mp hbranch)) (by decide)

/-- Bits 27:26 are 01 in a SingleTransfer word and 00 in a Multiply word. -/
theorem not_tMul_of_tSdt {w : Word} (hsdt : tSdt w = true) : ¬ tMul w = true := fun hmul =>
  absurd (mask_tests_agree ((tSdt_iff_mask w).mp hsdt) ((tMul_iff_mask w).mp hmul)) (by decide)

/-- Bits 27:26 are 01 in a SingleTransfer word and 11 in a Swi word. -/
theorem not_tSwi_of_tSdt {w : Word} (hsdt : tSdt w = true) : ¬ tSwi w = true := fun hswi =>
  absurd (mask_tests_agree ((tSdt_iff_mask w).mp hsdt) ((tSwi_iff_mask w).mp hswi)) (by decide)

/-- Bits 27:26 are 01 in a SingleTransfer word and 00 in a DataProcessing word. -/
theorem not_tDp_of_tSdt {w : Word} (hsdt : tSdt w = true) : ¬ tDp w = true := fun hdp =>
  absurd (((tSdt_iff_bits w).mp hsdt).symm.trans ((tDp_iff_bits w).mp hdp)) (by decide)

theorem classify_of_tSdt {w : Word} (hsdt : tSdt w = true) : classify w = .singleTransfer := by
  rw [classify, if_neg (not_tBranch_of_tSdt hsdt), if_neg (not_tMul_of_tSdt hsdt), if_neg (not_tSwi_of_tSdt hsdt),
    if_neg (not_tDp_of_tSdt hsdt), if_pos hsdt]

theorem decode_of_tSdt {w : Word} (hsdt : tSdt w = true) : decode w = decodeSdt w := by
  rw [decode, classify_of_tSdt hsdt]

/-! ## The four rows: the family, the form in bit 25 and the load bit 20 (R36, R116, R117) -/

section Rows
variable {w : Word} {regForm load : Bool}
  (hrow : w &&& (0x0e100000 : Word) =
    (0x04000000 : Word) ||| (BitVec.ofBool regForm).zeroExtend 32 <<< 25 ||| (BitVec.ofBool load).zeroExtend 32 <<< 20)
include hrow

theorem tSdt_of_transferRow : tSdt w = true := by
  refine (tSdt_iff_mask w).mpr ((and_submask_eq hrow 0x0c000000).trans ?_)
  cases regForm <;> cases load <;> decide

theorem regForm_of_transferRow : w.getLsbD 25 = regForm := by
  refine (getLsbD_of_and_eq hrow (by decide)).trans ?_
  cases regForm <;> cases load <;> decide

theorem load_of_transferRow : w.getLsbD 20 = load := by
  refine (getLsbD_of_and_eq hrow (by decide)).trans ?_
  cases regForm <;> cases load <;> decide

end Rows

end Sys2Proof

namespace Sys2Proof.Machine

/-! ## The renderer in the terms of the statements -/

theorem byteLetter_eq_toList (b : Bool) : byteLetter b = (if b then "b" else "").toList := by
  cases b <;> rfl

/-- R115: the renderer answers the outcome the statements describe; no field but the outputs changes. -/
theorem singleTransfer_eq_evaluated (name : Text) (load : Bool) (c : Cond) (t : TransferBits) (rn rd : Reg) (off : Offset)
    (s : State) :
    singleTransfer name load c t rn rd off s = evaluated s .singleTransfer
      (.singleTransfer ⟨c, off.isReg, t.P, t.U, t.B, t.W, load, rn, rd, off⟩)
      (name ++ condText c ++ (if t.B then "b" else "").toList ++ " ".toList ++ reg rd ++ ",[".toList ++ reg rn ++
        offsetText Config.params off ++ "]".toList) := by
  rw [singleTransfer_eq, byteLetter_eq_toList]; rfl

/-! ## The decoded word's meaning is the renderer on the word's fields -/

/-- The offset of a word, by the form in bit 25 (R36). -/
def offsetOf (w : Word) : Offset :=
  if w.getLsbD 25 then .reg (shiftedRegOf w) else .imm12 (w.extractLsb' 0 12)

/-- The mnemonic that the load bit selects (R115). -/
def transferName (load : Bool) : String := if load then "ldr" else "str"

theorem exec_decodeSdt (w : Word) (s : State) :
    exec (decodeSdt w) s = singleTransfer (transferName (w.getLsbD 20)).toList (w.getLsbD 20) (condOf w)
      (transferBitsOf w) (w.extractLsb' 16 4) (w.extractLsb' 12 4) (offsetOf w) s := by
  unfold decodeSdt offsetOf
  cases w.getLsbD 25 <;> cases w.getLsbD 20 <;> rfl

/-- The text between the base register and the closing bracket (R115, R118). -/
theorem offsetText_offsetOf (w : Word) : offsetText Config.params (offsetOf w) =
    if w.getLsbD 25 then shreg (shiftedRegOf w) else Config.params.placeholder := by
  unfold offsetOf
  cases w.getLsbD 25 <;> rfl

/-- R115 for a word of any of the four rows. -/
theorem exec_decode_of_transferRow (regForm load : Bool) (s : State)
    (hrow : s.word &&& (0x0e100000 : Word) =
      (0x04000000 : Word) ||| (BitVec.ofBool regForm).zeroExtend 32 <<< 25 ||| (BitVec.ofBool load).zeroExtend 32 <<< 20) :
    ∃ f, exec (decode s.word) s = evaluated s .singleTransfer f
      ((transferName load).toList ++ condText (condOf s.word) ++ (if s.word.getLsbD 22 then "b" else "").toList ++
        " ".toList ++ reg (s.word.extractLsb' 12 4) ++ ",[".toList ++ reg (s.word.extractLsb' 16 4) ++
        (if regForm then shreg (shiftedRegOf s.word) else Config.params.placeholder) ++ "]".toList) := by
  rw [decode_of_tSdt (tSdt_of_transferRow hrow), exec_decodeSdt, singleTransfer_eq_evaluated, offsetText_offsetOf,
    regForm_of_transferRow hrow, load_of_transferRow hrow]
  exact ⟨_, rfl⟩

/-- Settles O19: each row fixes the family, the form and the load bit, and the renderer prints the fields decoded. -/
theorem singleTransferWordsPrint : Obligations.SingleTransferWordsPrint := by
  intro s w out
  exact ⟨exec_decode_of_transferRow false false s, exec_decode_of_transferRow false true s,
    exec_decode_of_transferRow true false s, exec_decode_of_transferRow true true s⟩

end Sys2Proof.Machine

/-! PROOFS. The fallback (49_fallback_and_line.md): which words are of format X, and what they print (O21). -/

namespace Sys2Proof

/-! ## No raw test holds exactly on the words of format X (R38, R81): bits 27:24 decide -/

/-- A field of a field is a field. -/
theorem extractLsb'_extractLsb' {n : Nat} (x : BitVec n) (start : Nat) {len start' len' : Nat}
    (hfit : start' + len' ≤ len) :
    (x.extractLsb' start len).extractLsb' start' len' = x.extractLsb' (start + start') len' := by
  ext i hi
  have hlt : start' + i < len := by omega
  simp [hlt, Nat.add_assoc]

/-- `high3` is the three upper bits of bits 27:24. -/
theorem high3_eq_extractLsb'_24_4 (w : Word) : high3 w = (w.extractLsb' 24 4).extractLsb' 1 3 := by
  rw [extractLsb'_extractLsb' w 24 (by decide), high3]

theorem and_bits27To24Mask (w : Word) : w &&& (0x0f000000 : Word) = (w.extractLsb' 24 4).setWidth 32 <<< 24 :=
  and_allOnes_shiftLeft_eq_extractLsb' w 24 4

/-- The Multiply words are among those that pass the DataProcessing test (R53). -/
theorem tDp_of_tMul {w : Word} (hmul : tMul w = true) : tDp w = true := by
  have hzero : w &&& 0x0e000000 = 0#32 := and_submask_eq ((tMul_iff_mask w).mp hmul) 0x0e000000
  have hfield : ∀ h : BitVec 3, h.setWidth 32 <<< 25 = 0#32 → (h == 0b000 || h == 0b001) = true := by decide
  exact hfield (high3 w) (and_high3Mask w ▸ hzero)

/-- R52: Unknown is what passes none of the tests; the Multiply test needs no mention. -/
theorem classify_eq_unknown_iff (w : Word) : classify w = .unknown ↔
    ¬ tBranch w = true ∧ ¬ tSwi w = true ∧ ¬ tDp w = true ∧ ¬ tSdt w = true ∧ ¬ tBdt w = true := by
  have hmul : ¬ tDp w = true → ¬ tMul w = true := mt tDp_of_tMul
  unfold classify
  constructor
  · intro hfam
    split_ifs at hfam with hbranch _ hswi hdp hsdt hbdt
    exact ⟨hbranch, hswi, hdp, hsdt, hbdt⟩
  · rintro ⟨hbranch, hswi, hdp, hsdt, hbdt⟩
    rw [if_neg hbranch, if_neg (hmul hdp), if_neg hswi, if_neg hdp, if_neg hsdt, if_neg hbdt]

/-- R131: the words of format X, by their two masks. -/
theorem classify_eq_unknown_iff_formatX (w : Word) :
    classify w = .unknown ↔ w &&& 0x0e000000 = 0x0c000000 ∨ w &&& 0x0f000000 = 0x0e000000 := by
  have hfield : ∀ n : BitVec 4,
      (¬ (n.extractLsb' 1 3 == 0b101) = true ∧ ¬ (n.setWidth 32 <<< 24 == 0x0f000000#32) = true ∧
        ¬ (n.extractLsb' 1 3 == 0b000 || n.extractLsb' 1 3 == 0b001) = true ∧
        ¬ (n.extractLsb' 1 3 == 0b010 || n.extractLsb' 1 3 == 0b011) = true ∧ ¬ (n.extractLsb' 1 3 == 0b100) = true) ↔
      (n.extractLsb' 1 3).setWidth 32 <<< 25 = 0x0c000000#32 ∨ n.setWidth 32 <<< 24 = 0x0e000000#32 := by decide
  rw [classify_eq_unknown_iff, tBranch, tSwi, tDp, tSdt, tBdt, and_high3Mask, and_bits27To24Mask,
    high3_eq_extractLsb'_24_4]
  exact hfield _

theorem decode_of_classify_eq_unknown {w : Word} (hfam : classify w = .unknown) : decode w = decodeRaw w := by
  rw [decode, hfam]

end Sys2Proof

namespace Sys2Proof.Machine

/-- R131: both rows of format X have one meaning. -/
theorem exec_decodeRaw (w : Word) : exec (decodeRaw w) = rawWord w := by
  unfold decodeRaw
  split <;> rfl

/-- R131: the renderer answers the outcome the statements describe; no field but the outputs changes. -/
theorem rawWord_eq_evaluated (w : Word) (s : State) :
    rawWord w s = evaluated s .unknown (.unknown w) (Config.params.marker ++ hex8 w) :=
  rawWord_eq w s

/-- Settles O21: the masks of format X are the words that pass no test, and the other words' renderers drive the family
that the classifier found. -/
theorem unknownWordsPrintMarker : Obligations.UnknownWordsPrintMarker := by
  intro s
  rw [← classify_eq_unknown_iff_formatX]
  refine ⟨Iff.rfl, fun hfam => ?_, fun hfam => ?_⟩
  · rw [decode_of_classify_eq_unknown hfam, exec_decodeRaw]
    exact ⟨_, rawWord_eq_evaluated ..⟩
  · obtain ⟨f, text, target, hexec, -⟩ := (decode_prints s.word hfam).drives s
    exact ⟨_, hexec, hfam⟩

end Sys2Proof.Machine

/-! PROOFS. The whole block (49_fallback_and_line.md R136): the decoded word's meaning drives the family, the fields, the
text and the computed target that the one page gives for the bits of the word
(the text serves O43). -/

namespace Sys2Proof.Machine

/-! ## The name tables: the entry at a field is the name of the field's decoded value -/

theorem condText_condOf (w : Word) : condText (condOf w) = Block.condSuffix w := by
  have htable : ∀ x : BitVec 4, condText (Cond.ofBits x) = entry COND x.toNat := by decide
  exact htable _

theorem dpName_ofBits (x : BitVec 4) : dpName (DpOp.ofBits x) = entry DPNAME x.toNat := by
  revert x; decide

theorem shiftName_ofBits (x : BitVec 2) : shiftName (Shift.ofBits x) = entry SHIFT x.toNat := by
  revert x; decide

theorem modeName_ofBits (x : BitVec 2) : modeName (Mode.ofBits x) = entry MODE x.toNat := by
  revert x; decide

/-! ## The marks printed for one field -/

theorem comparisonLetter_eq_toList (rd : Reg) : comparisonLetter rd = (if rd = 15 then "p" else "").toList := by
  unfold comparisonLetter
  split <;> rfl

theorem writebackMark_eq_toList (wb : Bool) : writebackMark wb = (if wb then "!" else "").toList := by
  cases wb <;> rfl

theorem userBankMark_eq_toList (u : Bool) : userBankMark u = (if u then "^" else "").toList := by
  cases u <;> rfl

/-! ## The shifted register (R110) -/

/-- R111: the shift is printed exactly when bits 11 to 4 are not all zero. -/
theorem shifted_shiftedRegOf (w : Word) : shifted (shiftedRegOf w) = true ↔ w.extractLsb' 4 8 ≠ 0 := by
  have hfield : ∀ x : BitVec 8, (x.extractLsb' 4 4 != 0 || x.getLsbD 3 || Shift.ofBits (x.extractLsb' 1 2) != .lsl ||
      x.getLsbD 0) = true ↔ x ≠ 0 := by decide
  have hbits := hfield (w.extractLsb' 4 8)
  rw [extractLsb'_extractLsb' w 4 (by decide), extractLsb'_extractLsb' w 4 (by decide)] at hbits
  simpa [shifted, shiftedRegOf] using hbits

theorem shreg_shiftedRegOf (w : Word) : shreg (shiftedRegOf w) = Block.shiftedRegister w := by
  simp only [shreg, shifted_shiftedRegOf, shiftAmount]
  simp only [shiftedRegOf, shiftName_ofBits]
  rfl

/-! ## The rotated immediate (R40) -/

/-- A rotation to the left is a shift in an accumulator of twice the width with the overflow folded back. -/
theorem rotateLeft_eq_fold (v : Word) {k : Nat} (hk : k < 32) :
    v.rotateLeft k = (v.setWidth 64 <<< k).extractLsb' 0 32 ||| (v.setWidth 64 <<< k).extractLsb' 32 32 := by
  have hlow : (v.setWidth 64 <<< k).extractLsb' 0 32 = v <<< k := by
    ext i hi
    have hlt : i < 64 := by omega
    have hbit : i - k < 32 := by omega
    simp [hlt, BitVec.getLsbD_eq_getElem hbit]
  have hhigh : (v.setWidth 64 <<< k).extractLsb' 32 32 = v >>> (32 - k) := by
    ext i hi
    have hge : ¬ 32 + i < k := by omega
    have hlt : 32 + i < 64 := by omega
    have hbit : 32 + i - k = 32 - k + i := by omega
    simp [hge, hlt, hbit]
  rw [hlow, hhigh, BitVec.rotateLeft_def, Nat.mod_eq_of_lt hk]

theorem imm32_rotImmOf (w : Word) : imm32 (rotImmOf w) = Block.immediate w := by
  have hk : 2 * (w.extractLsb' 8 4).toNat < 32 := by omega
  have hbyte : ((w.extractLsb' 0 8).setWidth 32).setWidth 64 = (w.extractLsb' 0 8).setWidth 64 :=
    BitVec.setWidth_setWidth (by decide)
  rw [imm32, rotImmOf, BitVec.zeroExtend, rotateLeft_eq_fold _ hk, hbyte]
  rfl

/-! ## The register list (R126) -/

/-- The names of the listed registers from `i` on: the first after `comma`, the others after a comma each. -/
theorem listFrom_eq_intercalate (list : BitVec 16) (n i : Nat) (comma : Text) :
    Block.listFrom list n i comma =
      match ((List.range' i n).filter list.getLsbD).map fun k => reg (BitVec.ofNat 4 k) with
      | [] => []
      | names => comma ++ List.intercalate ",".toList names := by
  induction n generalizing i comma with
  | zero => rfl
  | succ n ih =>
    rw [Block.listFrom, List.range'_succ]
    by_cases hbit : list.getLsbD i
    · rw [if_pos hbit, List.filter_cons_of_pos hbit, ih, List.map_cons]
      cases ((List.range' (i + 1) n).filter list.getLsbD).map fun k => reg (BitVec.ofNat 4 k) with
      | nil => simp
      | cons name names => simp [List.intercalate_cons_cons]
    · rw [if_neg hbit, List.filter_cons_of_neg hbit, ih]

theorem reglist_eq_listFrom (list : BitVec 16) : reglist list = Block.listFrom list 16 0 [] := by
  rw [listFrom_eq_intercalate, reglist, listed, List.range_eq_range']
  split
  next hnone => rw [hnone]; rfl
  next => rfl

/-! ## The data-processing renderers, by the class of the opcode (R85, R89) -/

/-- The text before the second operand: name, condition, letter and registers of the opcode's class (R86). -/
def dpHead (op : DpOp) (c : Cond) (sf : Bool) (rn rd : Reg) : Text :=
  match op with
  | .tst | .teq | .cmp | .cmn => dpName op ++ condText c ++ comparisonLetter rd ++ " ".toList ++ reg rn
  | .mov | .mvn => dpName op ++ condText c ++ setFlagsLetter sf ++ " ".toList ++ reg rd
  | .and | .eor | .sub | .rsb | .add | .adc | .sbc | .rsc | .orr | .bic =>
    dpName op ++ condText c ++ setFlagsLetter sf ++ " ".toList ++ reg rd ++ ",".toList ++ reg rn

theorem exec_dpReg (op : DpOp) (c : Cond) (sf : Bool) (rn rd : Reg) (o : ShiftedReg) (s : State) :
    exec (dpReg op c sf rn rd o) s = .next (s.drive .dataProcessing (dpFields op c sf rn rd (.reg o))
      (dpHead op c sf rn rd ++ operand2Text (.reg o))) := by
  cases op with
  | and | eor | sub | rsb | add | adc | sbc | rsc | orr | bic => exact twoOperand_eq ..
  | tst | teq | cmp | cmn => exact comparison_eq ..
  | mov | mvn => exact singleDestination_eq ..

theorem exec_dpImm (op : DpOp) (c : Cond) (sf : Bool) (rn rd : Reg) (o : RotImm) (s : State) :
    exec (dpImm op c sf rn rd o) s = .next (s.drive .dataProcessing (dpFields op c sf rn rd (immOperand o))
      (dpHead op c sf rn rd ++ operand2Text (immOperand o))) := by
  cases op with
  | and | eor | sub | rsb | add | adc | sbc | rsc | orr | bic => exact twoOperand_eq ..
  | tst | teq | cmp | cmn => exact comparison_eq ..
  | mov | mvn => exact singleDestination_eq ..

/-- R89: the class of an opcode by its bits. -/
theorem dpHead_ofBits (opc : BitVec 4) (c : Cond) (sf : Bool) (rn rd : Reg) :
    dpHead (DpOp.ofBits opc) c sf rn rd =
      if opc.getLsbD 3 = false ∨ opc = 0xc ∨ opc = 0xe then
        dpName (DpOp.ofBits opc) ++ condText c ++ setFlagsLetter sf ++ " ".toList ++ reg rd ++ ",".toList ++ reg rn
      else if opc.extractLsb' 2 2 = 0b10 then
        dpName (DpOp.ofBits opc) ++ condText c ++ comparisonLetter rd ++ " ".toList ++ reg rn
      else dpName (DpOp.ofBits opc) ++ condText c ++ setFlagsLetter sf ++ " ".toList ++ reg rd := by
  obtain ⟨op, rfl⟩ : ∃ op : DpOp, opc = op.toBits := ⟨_, (DpOp.toBits_ofBits opc).symm⟩
  rw [DpOp.ofBits_toBits]
  cases op <;> rfl

/-- The second operand of a word, by the form in bit 25 (R34). -/
def operand2Of (w : Word) : Operand2 :=
  if w.getLsbD 25 then immOperand (rotImmOf w) else .reg (shiftedRegOf w)

theorem textDp_eq (w : Word) : Block.textDp w =
    dpHead (DpOp.ofBits (w.extractLsb' 21 4)) (condOf w) (w.getLsbD 20) (w.extractLsb' 16 4) (w.extractLsb' 12 4) ++
      operand2Text (operand2Of w) := by
  have hop2 : operand2Text (operand2Of w) =
      if w.getLsbD 25 then ",".toList ++ dec (Block.immediate w) else Block.shiftedRegister w := by
    rw [← imm32_rotImmOf, ← shreg_shiftedRegOf, operand2Of]
    split <;> rfl
  rw [dpHead_ofBits, hop2, dpName_ofBits, condText_condOf, comparisonLetter_eq_toList, setFlagsLetter_eq_toList]
  rfl

theorem dpFields_operand2Of (w : Word) :
    dpFields (DpOp.ofBits (w.extractLsb' 21 4)) (condOf w) (w.getLsbD 20) (w.extractLsb' 16 4) (w.extractLsb' 12 4)
      (operand2Of w) = Block.fields .dataProcessing w := by
  rw [Block.fields, ← imm32_rotImmOf, operand2Of]
  cases w.getLsbD 25 <;> rfl

/-! ## Each family's decoded meaning is the family's part of the page -/

/-- The meaning drives the outputs that the page gives for the word `w` of family `fam`, with the text `text addr`. -/
def DrivesPage (fam : Family) (w : Word) (text : Word → Text) (meaning : State → Result) : Prop :=
  ∀ s : State, meaning s =
    .next (s.drive fam (Block.fields fam w) (text s.addr) (Block.computedTarget fam s.addr w))

theorem decodeBranch_drivesPage (w : Word) :
    DrivesPage .branch w (Block.textBranch · w) (exec (decodeBranch w)) := by
  intro s
  beta_reduce
  rw [Block.textBranch, ← condText_condOf, Block.fields, decodeBranch]
  cases w.getLsbD 24 <;> rfl

theorem decodeMultiply_drivesPage (w : Word) :
    DrivesPage .multiply w (fun _ => Block.textMultiply w) (exec (decodeMultiply w)) := by
  intro s
  rw [Block.textMultiply, ← condText_condOf, ← setFlagsLetter_eq_toList, Block.fields, decodeMultiply]
  cases w.getLsbD 21 <;> rfl

theorem decodeSwi_drivesPage (w : Word) : DrivesPage .swi w (fun _ => Block.textSwi w) (exec (decodeSwi w)) := by
  intro s
  rw [Block.textSwi, ← condText_condOf]
  rfl

theorem decodeDp_drivesPage (w : Word) :
    DrivesPage .dataProcessing w (fun _ => Block.textDp w) (exec (decodeDp w)) := by
  intro s
  rw [textDp_eq, ← dpFields_operand2Of, operand2Of, decodeDp]
  split
  · exact exec_dpImm ..
  · exact exec_dpReg ..

theorem decodeSdt_drivesPage (w : Word) :
    DrivesPage .singleTransfer w (fun _ => Block.textSdt Config.params w) (exec (decodeSdt w)) := by
  intro s
  rw [exec_decodeSdt, singleTransfer_eq, offsetText_offsetOf, shreg_shiftedRegOf, byteLetter_eq_toList, condText_condOf,
    Block.fields, Block.textSdt, offsetOf]
  cases w.getLsbD 25 <;> rfl

theorem decodeBdt_drivesPage (w : Word) :
    DrivesPage .blockTransfer w (fun _ => Block.textBdt w) (exec (decodeBdt w)) := by
  intro s
  rw [Block.textBdt, ← condText_condOf, ← modeName_ofBits, ← writebackMark_eq_toList, ← userBankMark_eq_toList,
    ← reglist_eq_listFrom, Block.fields, decodeBdt]
  cases w.getLsbD 20 <;> cases Mode.ofBits (w.extractLsb' 23 2) <;> rfl

theorem decodeRaw_drivesPage (w : Word) :
    DrivesPage .unknown w (fun _ => textRaw Config.params w) (exec (decodeRaw w)) := by
  rw [exec_decodeRaw]
  exact rawWord_eq w

/-- R56, R136: the multiplexer's choice of renderer is the choice of `decode`. -/
theorem decode_drivesPage (w : Word) :
    DrivesPage (classify w) w (Block.text Config.params · w) (exec (decode w)) := by
  unfold decode Block.text
  cases classify w with
  | branch => exact decodeBranch_drivesPage w
  | multiply => exact decodeMultiply_drivesPage w
  | swi => exact decodeSwi_drivesPage w
  | dataProcessing => exact decodeDp_drivesPage w
  | singleTransfer => exact decodeSdt_drivesPage w
  | blockTransfer => exact decodeBdt_drivesPage w
  | unknown => exact decodeRaw_drivesPage w

end Sys2Proof.Machine

/-! PROOFS. The line (49_fallback_and_line.md R134): its layout and its last character (O43). -/

namespace Sys2Proof.Machine

/-! ## The last character of a text -/

/-- The text has a last character, and it is neither a space nor a line terminator. -/
def EndsVisibly (t : Text) : Prop := ∃ ch, t.getLast? = some ch ∧ ch ≠ ' ' ∧ ch ≠ '\n'

theorem EndsVisibly.append {t : Text} (ht : EndsVisibly t) (u : Text) : EndsVisibly (u ++ t) := by
  obtain ⟨ch, hlast, hch⟩ := ht
  exact ⟨ch, by rw [List.getLast?_append, hlast, Option.some_or], hch⟩

/-- Only the last of several parts matters; an optional last part may be absent. -/
theorem EndsVisibly.append_ite {t u : Text} (ht : EndsVisibly t) (hu : EndsVisibly u) (c : Prop) [Decidable c] :
    EndsVisibly (t ++ if c then u else []) := by
  split
  · exact hu.append t
  · rwa [List.append_nil]

theorem endsVisibly_singleton {ch : Char} (hch : ch ≠ ' ' ∧ ch ≠ '\n') : EndsVisibly [ch] := ⟨ch, rfl, hch⟩

theorem endsVisibly_digit {d : Nat} (hd : d < 16) : EndsVisibly [digitChar d] := by
  have hdigits : ∀ d < 16, digitChar d ≠ ' ' ∧ digitChar d ≠ '\n' := by decide
  exact endsVisibly_singleton (hdigits d hd)

/-! ## The text primitives and the operands -/

theorem endsVisibly_hex8 (v : Word) : EndsVisibly (hex8 v) :=
  (endsVisibly_digit (v.extractLsb' 0 4).isLt).append
    ([28, 24, 20, 16, 12, 8, 4].map fun lo => digitChar (v.extractLsb' lo 4).toNat)

/-- The digits are put in front: the last digit is the first one made. -/
theorem decDigits_suffix (fuel n : Nat) (acc : Text) : acc <:+ decDigits fuel n acc := by
  induction fuel generalizing n acc with
  | zero => exact List.suffix_rfl
  | succ fuel ih =>
    rw [decDigits]
    split
    · exact List.suffix_cons ..
    · exact (List.suffix_cons ..).trans (ih ..)

theorem endsVisibly_dec (v : Word) : EndsVisibly (dec v) := by
  have hlast : [digitChar (v.toNat % 10)] <:+ dec v := by
    rw [dec, decDigits]
    split
    · exact List.suffix_rfl
    · exact decDigits_suffix ..
  obtain ⟨front, hfront⟩ := hlast
  have hdigit : v.toNat % 10 < 16 := by omega
  exact hfront ▸ (endsVisibly_digit hdigit).append front

theorem endsVisibly_reg (r : Reg) : EndsVisibly (reg r) := (endsVisibly_dec _).append ['r']

theorem endsVisibly_shiftedRegister (w : Word) : EndsVisibly (Block.shiftedRegister w) := by
  have hamount : EndsVisibly
      (if w.getLsbD 4 then reg (w.extractLsb' 8 4) else dec ((w.extractLsb' 8 4).zeroExtend 32)) := by
    split
    · exact endsVisibly_reg _
    · exact endsVisibly_dec _
  exact ((endsVisibly_reg _).append _).append_ite (hamount.append _) _

/-! ## The page's texts (R136) -/

theorem endsVisibly_textMultiply (w : Word) : EndsVisibly (Block.textMultiply w) :=
  ((endsVisibly_reg _).append _).append_ite ((endsVisibly_reg _).append _) _

theorem endsVisibly_textDp (w : Word) : EndsVisibly (Block.textDp w) := by
  refine EndsVisibly.append ?_ _
  split
  · exact (endsVisibly_dec _).append _
  · exact endsVisibly_shiftedRegister w

theorem endsVisibly_textBdt (w : Word) : EndsVisibly (Block.textBdt w) := by
  have hbrace : EndsVisibly [rbrace] := endsVisibly_singleton (by decide)
  have hmark : EndsVisibly "^".toList := endsVisibly_singleton (by decide)
  rw [Block.textBdt, ← userBankMark_eq_toList]
  exact (hbrace.append _).append_ite hmark _

theorem endsVisibly_text (p : Params) (addr w : Word) : EndsVisibly (Block.text p addr w) := by
  unfold Block.text
  cases classify w with
  | branch => exact (endsVisibly_hex8 _).append _
  | multiply => exact endsVisibly_textMultiply w
  | swi => exact (endsVisibly_dec _).append _
  | dataProcessing => exact endsVisibly_textDp w
  | singleTransfer => exact (endsVisibly_singleton (ch := ']') (by decide)).append _
  | blockTransfer => exact endsVisibly_textBdt w
  | unknown => exact (endsVisibly_hex8 _).append _

/-! ## The five parts of the line -/

/-- Settles O43: the decoded word's meaning drives the line of the page's text, whose first 22 characters are of fixed
width. -/
theorem lineLayout : Obligations.LineLayout := by
  intro s
  obtain ⟨ch, hlast, hch⟩ := (endsVisibly_text Config.params s.addr s.word).append
    (hex8 s.addr ++ " : ".toList ++ hex8 s.word ++ " : ".toList)
  refine ⟨_, decode_drivesPage s.word s, rfl, rfl, rfl, rfl, assembleLine_drop_22 .., ?_, ?_⟩
  · rw [State.drive_line, assembleLine, hlast, Option.isSome_some]
  · rw [State.drive_line, assembleLine, hlast]
    rintro _ ⟨⟩
    exact hch

end Sys2Proof.Machine

/-! PROOFS. The exceptions (60_exceptions.md R140): no fault, and always a next state (O49). -/

namespace Sys2Proof.Machine

/-- A step with nothing to present: the meaning of the word on the inputs runs, and no line is delivered. -/
theorem step_nil {s : State} (hstream : s.stream = []) : step s = exec (decode s.word) s := by
  rw [step, State.fetch_nil s hstream, finish_nil s hstream]

theorem exec_answers_next (i : Instr) (s : State) : ∃ t, exec i s = .next t := by
  obtain ⟨_, _, _, _, hexec⟩ := exec_drives i
  exact ⟨_, hexec s⟩

theorem step_answers_next (s : State) : ∃ t, step s = .next t := by
  cases hstream : s.stream with
  | nil => exact step_nil hstream ▸ exec_answers_next (decode s.word) s
  | cons k rest =>
    obtain ⟨_, hexec⟩ := exec_answers_next (decode (assemble k)) (s.present k rest)
    exact ⟨_, step_cons hstream hexec⟩

/-- Settles O49: `Fault` has no constructor, every meaning drives the outputs, and a step is one meaning between
presenting and delivering. -/
theorem nothingFaultsOrRefuses : Obligations.NothingFaultsOrRefuses :=
  ⟨nofun, exec_answers_next, step_answers_next⟩

end Sys2Proof.Machine

/-! PROOFS. The classifier (40_classifier.md section 3): its closed form (O23), the one overlap of the raw tests (O24)
and the orders of the tests (O25). -/

namespace Sys2Proof

/-! ## The two mask tests as tests of fields -/

/-- A field on which the mask is all ones is the pattern's. -/
theorem extractLsb'_of_and_eq {n start len : Nat} {w mask pattern : BitVec n} (hrow : w &&& mask = pattern)
    (hmask : mask.extractLsb' start len = BitVec.allOnes len) :
    w.extractLsb' start len = pattern.extractLsb' start len := by
  rw [← hrow, BitVec.extractLsb'_and, hmask, BitVec.and_allOnes]

/-- R51: `is_mul` reads `high3`, bits 24:22 and bits 7:4. -/
theorem tMul_iff_fields (w : Word) :
    tMul w = true ↔ high3 w = 0 ∧ w.extractLsb' 22 3 = 0b000 ∧ w.extractLsb' 4 4 = 0b1001 := by
  rw [tMul_iff_mask]
  constructor
  · intro hmask
    exact ⟨extractLsb'_of_and_eq hmask rfl, extractLsb'_of_and_eq hmask rfl, extractLsb'_of_and_eq hmask rfl⟩
  · rintro ⟨hhigh, hopc, hlow⟩
    have hsplit : (0x0fc000f0 : Word) = (BitVec.allOnes 3).setWidth 32 <<< 25 |||
      (BitVec.allOnes 3).setWidth 32 <<< 22 ||| (BitVec.allOnes 4).setWidth 32 <<< 4 := by decide
    rw [hsplit, BitVec.and_or_distrib_left, BitVec.and_or_distrib_left, and_allOnes_shiftLeft_eq_extractLsb',
      and_allOnes_shiftLeft_eq_extractLsb', and_allOnes_shiftLeft_eq_extractLsb', hopc, hlow]
    rw [high3] at hhigh
    rw [hhigh]
    rfl

/-- R51: `is_swi` reads `high3` and bit 24. -/
theorem tSwi_iff_fields (w : Word) : tSwi w = true ↔ high3 w = 0b111 ∧ w.getLsbD 24 = true := by
  have hfield : ∀ n : BitVec 4, (n.setWidth 32 <<< 24 == 0x0f000000#32) = true ↔
      n.extractLsb' 1 3 = 0b111 ∧ n.getLsbD 0 = true := by decide
  have hbit : w.getLsbD 24 = (w.extractLsb' 24 4).getLsbD 0 := by simp
  rw [tSwi, and_bits27To24Mask, high3_eq_extractLsb'_24_4, hbit]
  exact hfield _

/-! ## The words of families Branch, DataProcessing and BlockTransfer (R51, R52) -/

theorem classify_of_tBranch {w : Word} (hbranch : tBranch w = true) : classify w = .branch := if_pos hbranch

theorem classify_of_tDp {w : Word} (hdp : tDp w = true) (hmul : ¬ tMul w = true) : classify w = .dataProcessing := by
  have hhigh : high3 w = 0b000 ∨ high3 w = 0b001 := by simpa [tDp] using hdp
  have hbranch : ¬ tBranch w = true := by rcases hhigh with h | h <;> simp [tBranch, h]
  have hswi : ¬ tSwi w = true := by rcases hhigh with h | h <;> simp [tSwi_iff_fields, h]
  rw [classify, if_neg hbranch, if_neg hmul, if_neg hswi, if_pos hdp]

theorem classify_of_tBdt {w : Word} (hbdt : tBdt w = true) : classify w = .blockTransfer := by
  have hhigh : high3 w = 0b100 := beq_iff_eq.mp hbdt
  simp [classify, tBranch, tMul_iff_fields, tSwi_iff_fields, tDp, tSdt, tBdt, hhigh]

theorem decode_of_tBranch {w : Word} (hbranch : tBranch w = true) : decode w = decodeBranch w := by
  rw [decode, classify_of_tBranch hbranch]

theorem decode_of_tDp {w : Word} (hdp : tDp w = true) (hmul : ¬ tMul w = true) : decode w = decodeDp w := by
  rw [decode, classify_of_tDp hdp hmul]

theorem decode_of_tBdt {w : Word} (hbdt : tBdt w = true) : decode w = decodeBdt w := by
  rw [decode, classify_of_tBdt hbdt]

/-- Settles O23: for each value of `high3` the chain of R52 has one test left to decide. -/
theorem classifierClosedForm : Obligations.ClassifierClosedForm := by
  intro w
  have hcases : ∀ h : BitVec 3, h = 0 ∨ h = 1 ∨ h = 2 ∨ h = 3 ∨ h = 4 ∨ h = 5 ∨ h = 6 ∨ h = 7 := by decide
  have hfield : w.extractLsb' 25 3 = high3 w := rfl
  rw [hfield]
  rcases hcases (high3 w) with h | h | h | h | h | h | h | h <;>
    simp [classify, tBranch, tMul_iff_fields, tSwi_iff_fields, tDp, tSdt, tBdt, h]

end Sys2Proof

namespace Sys2Proof.Machine

/-! ## The raw tests and the classifier's choice (R52, R53) -/

/-- R52: the family chosen is one whose test holds. -/
theorem rawTest_classify {w : Word} (hfam : classify w ≠ .unknown) : rawTest (classify w) w = true := by
  unfold classify at hfam ⊢
  split_ifs at hfam ⊢ with hbranch hmul hswi hdp hsdt hbdt
  exacts [hbranch, hmul, hswi, hdp, hsdt, hbdt, absurd rfl hfam]

theorem tMul_of_classify {w : Word} (hfam : classify w = .multiply) : tMul w = true := by
  have htest := rawTest_classify (hfam ▸ nofun : classify w ≠ .unknown)
  rwa [hfam] at htest

/-- C3: a test that holds is the chosen family's, or it is the DataProcessing test on a Multiply word. -/
theorem classify_of_rawTest {fam : Family} {w : Word} (htest : rawTest fam w = true) :
    fam = classify w ∨ (fam = .dataProcessing ∧ classify w = .multiply) := by
  cases fam with
  | branch => exact .inl (classify_of_tBranch htest).symm
  | multiply => exact .inl (classify_of_tMul htest).symm
  | swi => exact .inl (classify_of_tSwi htest).symm
  | dataProcessing =>
    by_cases hmul : tMul w = true
    · exact .inr ⟨rfl, classify_of_tMul hmul⟩
    · exact .inl (classify_of_tDp htest hmul).symm
  | singleTransfer => exact .inl (classify_of_tSdt htest).symm
  | blockTransfer => exact .inl (classify_of_tBdt htest).symm
  | unknown => exact absurd htest nofun

/-- Settles O24: two tests that hold are each the chosen family's or the DataProcessing test on a Multiply word. -/
theorem multiplyIsTheOnlyOverlap : Obligations.MultiplyIsTheOnlyOverlap := by
  intro w
  refine ⟨fun f g hf hg => ?_, tDp_of_tMul, fun hfam => ?_, fun htests => classify_of_tMul htests.1⟩
  · rcases classify_of_rawTest hf with rfl | ⟨rfl, hmul⟩ <;> rcases classify_of_rawTest hg with rfl | ⟨rfl, hmul'⟩
    · exact .inl rfl
    · exact .inr (.inl ⟨hmul', rfl⟩)
    · exact .inr (.inr ⟨rfl, hmul⟩)
    · exact .inl rfl
  · exact ⟨tMul_of_classify hfam, tDp_of_tMul (tMul_of_classify hfam)⟩

/-! ## Orders of the tests (R55) -/

/-- The first element that passes is the one that stands before every other that passes. -/
theorem find?_eq_some_of_idxOf_le {α : Type} [DecidableEq α] {p : α → Bool} {a : α} (ha : p a = true) {l : List α}
    (hmem : a ∈ l) (hfirst : ∀ b ∈ l, p b = true → l.idxOf a ≤ l.idxOf b) : l.find? p = some a := by
  induction l with
  | nil => exact absurd hmem List.not_mem_nil
  | cons x xs ih =>
    by_cases hx : p x = true
    · have hzero := hfirst x List.mem_cons_self hx
      rw [List.idxOf_cons_self] at hzero
      obtain rfl : x = a := by
        by_contra hne
        simp [List.idxOf_cons_ne _ hne] at hzero
      exact List.find?_cons_of_pos hx
    · have hne : ∀ b, p b = true → x ≠ b := fun b hb h => hx (h ▸ hb)
      rw [List.find?_cons_of_neg hx]
      refine ih ((List.mem_cons.mp hmem).resolve_left (hne a ha).symm) fun b hb hpb => ?_
      have hle := hfirst b (List.mem_cons_of_mem x hb) hpb
      rwa [List.idxOf_cons_ne _ (hne a ha), List.idxOf_cons_ne _ (hne b hpb), Nat.succ_le_succ_iff] at hle

theorem firstFamily_of_first {fam : Family} {order : List Family} {w : Word} (htest : rawTest fam w = true)
    (hmem : fam ∈ order) (hfirst : ∀ g ∈ order, rawTest g w = true → order.idxOf fam ≤ order.idxOf g) :
    firstFamily order w = fam := by
  rw [firstFamily, find?_eq_some_of_idxOf_le (p := (rawTest · w)) htest hmem hfirst, Option.getD_some]

/-- Where no test holds the order does not matter. -/
theorem firstFamily_of_classify_unknown (order : List Family) {w : Word} (hfam : classify w = .unknown) :
    firstFamily order w = .unknown := by
  have hnone : ∀ f ∈ order, ¬ rawTest f w = true := by
    intro f _ htest
    rcases classify_of_rawTest htest with rfl | ⟨-, hmul⟩
    · rw [hfam] at htest
      exact absurd htest nofun
    · exact absurd (hfam.symm.trans hmul) nofun
  rw [firstFamily, List.find?_eq_none.mpr hnone, Option.getD_none]

/-- 40_classifier.md section 3: a Multiply word in the data-processing renderer has bits 25 and 24:22 clear. -/
theorem decodeDp_of_tMul {w : Word} (hmul : tMul w = true) :
    ∃ c sf rn rd o, decodeDp w = .andR c sf rn rd o ∨ decodeDp w = .eorR c sf rn rd o := by
  obtain ⟨-, hopc, -⟩ := (tMul_iff_fields w).mp hmul
  have hform : ¬ w.getLsbD 25 = true :=
    Bool.eq_false_iff.mp (getLsbD_of_and_eq ((tMul_iff_mask w).mp hmul) (by decide))
  have hop : ∀ x : BitVec 4, x.extractLsb' 1 3 = 0b000 → DpOp.ofBits x = .and ∨ DpOp.ofBits x = .eor := by decide
  rw [← extractLsb'_extractLsb' w 21 (start' := 1) (len := 4) (by decide)] at hopc
  rw [decodeDp, if_neg hform]
  rcases hop _ hopc with h | h <;> rw [h]
  · exact ⟨_, _, _, _, _, .inl rfl⟩
  · exact ⟨_, _, _, _, _, .inr rfl⟩

/-- Settles O25: the first test in the order that holds is the chosen family's when it stands before the other test that
can hold, and the DataProcessing test when that one stands before. -/
theorem onlyMultiplyBeforeDataProcessingMatters : Obligations.OnlyMultiplyBeforeDataProcessingMatters := by
  intro order hperm
  have hmem : ∀ f : Family, f ≠ .unknown → f ∈ order := fun f hf => hperm.mem_iff.mpr (by cases f <;> simp at hf ⊢)
  refine ⟨fun hmulFirst w => ?_, fun hdpFirst w hmul => ⟨?_, decodeDp_of_tMul hmul⟩⟩
  · by_cases hfam : classify w = .unknown
    · rw [hfam, firstFamily_of_classify_unknown order hfam]
    · refine firstFamily_of_first (rawTest_classify hfam) (hmem _ hfam) fun g _ hg => ?_
      rcases classify_of_rawTest hg with rfl | ⟨rfl, hmul⟩
      · exact Nat.le_refl _
      · rw [hmul]
        exact hmulFirst.le
  · refine firstFamily_of_first (tDp_of_tMul hmul) (hmem _ nofun) fun g _ hg => ?_
    rcases classify_of_rawTest hg with hg' | ⟨rfl, -⟩
    · rw [hg', classify_of_tMul hmul]
      exact hdpFirst.le
    · exact Nat.le_refl _

end Sys2Proof.Machine

/-! PROOFS. The encoding (30_encoding.md): decoding and encoding are inverse (O27, O28), and the reading rule of the
opcode table (O29). -/

namespace Sys2Proof

/-! ## A word is the join of its fields, each format's fixed bits among them (R31 to R38) -/

theorem ofBool_getLsbD (w : Word) (i : Nat) : BitVec.ofBool (w.getLsbD i) = w.extractLsb' i 1 := by
  ext k hk
  obtain rfl : k = 0 := by omega
  simp

theorem wordSR_shiftedRegOf (w : Word) : wordSR (shiftedRegOf w) = w.extractLsb' 0 12 := by
  rw [wordSR, shiftedRegOf, Shift.toBits_ofBits, ofBool_getLsbD, ofBool_getLsbD]
  iterate 4 rw [BitVec.extractLsb'_append_extractLsb'_eq_extractLsb' (by decide)]

theorem wordB_fields {w : Word} (hfixed : w.extractLsb' 25 3 = 0b101#3) :
    wordB (condOf w) (w.getLsbD 24) (w.extractLsb' 0 24) = w := by
  rw [wordB, condOf, Cond.toBits_ofBits, ← hfixed, ofBool_getLsbD]
  iterate 3 rw [BitVec.extractLsb'_append_extractLsb'_eq_extractLsb' (by decide)]
  exact BitVec.extractLsb'_eq_self

theorem wordM_fields {w : Word} (hhigh : w.extractLsb' 22 6 = 0b000000#6) (hlow : w.extractLsb' 4 4 = 0b1001#4) :
    wordM (condOf w) (w.getLsbD 21) (w.getLsbD 20) (w.extractLsb' 16 4) (w.extractLsb' 12 4) (w.extractLsb' 8 4)
      (w.extractLsb' 0 4) = w := by
  rw [wordM, condOf, Cond.toBits_ofBits, ← hhigh, ← hlow, ofBool_getLsbD, ofBool_getLsbD]
  iterate 8 rw [BitVec.extractLsb'_append_extractLsb'_eq_extractLsb' (by decide)]
  exact BitVec.extractLsb'_eq_self

theorem wordW_fields {w : Word} (hfixed : w.extractLsb' 24 4 = 0b1111#4) :
    wordW (condOf w) (w.extractLsb' 0 24) = w := by
  rw [wordW, condOf, Cond.toBits_ofBits, ← hfixed]
  iterate 2 rw [BitVec.extractLsb'_append_extractLsb'_eq_extractLsb' (by decide)]
  exact BitVec.extractLsb'_eq_self

theorem wordDR_fields {w : Word} (hfixed : w.extractLsb' 25 3 = 0b000#3) :
    wordDR (condOf w) (DpOp.ofBits (w.extractLsb' 21 4)) (w.getLsbD 20) (w.extractLsb' 16 4) (w.extractLsb' 12 4)
      (shiftedRegOf w) = w := by
  rw [wordDR, wordSR_shiftedRegOf, condOf, Cond.toBits_ofBits, DpOp.toBits_ofBits, ← hfixed, ofBool_getLsbD]
  iterate 6 rw [BitVec.extractLsb'_append_extractLsb'_eq_extractLsb' (by decide)]
  exact BitVec.extractLsb'_eq_self

theorem wordDI_fields {w : Word} (hfixed : w.extractLsb' 25 3 = 0b001#3) :
    wordDI (condOf w) (DpOp.ofBits (w.extractLsb' 21 4)) (w.getLsbD 20) (w.extractLsb' 16 4) (w.extractLsb' 12 4)
      (rotImmOf w) = w := by
  rw [wordDI, rotImmOf, condOf, Cond.toBits_ofBits, DpOp.toBits_ofBits, ← hfixed, ofBool_getLsbD]
  iterate 7 rw [BitVec.extractLsb'_append_extractLsb'_eq_extractLsb' (by decide)]
  exact BitVec.extractLsb'_eq_self

theorem wordT_fields {w : Word} (hfixed : w.extractLsb' 26 2 = 0b01#2) :
    wordT (condOf w) (w.getLsbD 25) (transferBitsOf w) (w.getLsbD 20) (w.extractLsb' 16 4) (w.extractLsb' 12 4)
      (w.extractLsb' 0 12) = w := by
  simp only [wordT, transferBitsOf, condOf, Cond.toBits_ofBits, ← hfixed, ofBool_getLsbD]
  iterate 10 rw [BitVec.extractLsb'_append_extractLsb'_eq_extractLsb' (by decide)]
  exact BitVec.extractLsb'_eq_self

theorem wordK_fields {w : Word} (hfixed : w.extractLsb' 25 3 = 0b100#3) :
    wordK (condOf w) (Mode.ofBits (w.extractLsb' 23 2)) (w.getLsbD 22) (w.getLsbD 21) (w.getLsbD 20)
      (w.extractLsb' 16 4) (w.extractLsb' 0 16) = w := by
  simp only [wordK, condOf, Cond.toBits_ofBits, Mode.toBits_ofBits, ← hfixed, ofBool_getLsbD]
  iterate 7 rw [BitVec.extractLsb'_append_extractLsb'_eq_extractLsb' (by decide)]
  exact BitVec.extractLsb'_eq_self

/-! ## The rows of a family as constructors of the format's fields -/

theorem encode_dpReg (op : DpOp) (c : Cond) (sf : Bool) (rn rd : Reg) (o : ShiftedReg) :
    encode (dpReg op c sf rn rd o) = wordDR c op sf rn rd o := by cases op <;> rfl

theorem encode_dpImm (op : DpOp) (c : Cond) (sf : Bool) (rn rd : Reg) (o : RotImm) :
    encode (dpImm op c sf rn rd o) = wordDI c op sf rn rd o := by cases op <;> rfl

theorem wf_dpImm (op : DpOp) (c : Cond) (sf : Bool) (rn rd : Reg) (o : RotImm) :
    (dpImm op c sf rn rd o).wf = true := by cases op <;> rfl

/-- `word[7:4] = 1001` in the fields of sub-format SR. -/
theorem mulPattern_shiftedRegOf (w : Word) :
    (shiftedRegOf w).mulPattern = true ↔ w.extractLsb' 4 4 = 0b1001 := by
  have hfield : ∀ x : BitVec 4, (x.getLsbD 3 && Shift.ofBits (x.extractLsb' 1 2) == .lsl && x.getLsbD 0) = true ↔
      x = 0b1001 := by decide
  have hbits := hfield (w.extractLsb' 4 4)
  rw [extractLsb'_extractLsb' w 4 (by decide)] at hbits
  simpa [ShiftedReg.mulPattern, shiftedRegOf] using hbits

/-- Only `and` and `eor` have bits 24:22 zero. -/
theorem wf_dpReg (op : DpOp) (c : Cond) (sf : Bool) (rn rd : Reg) (o : ShiftedReg) :
    (dpReg op c sf rn rd o).wf = true ↔ ¬ (op.toBits.extractLsb' 1 3 = 0b000 ∧ o.mulPattern = true) := by
  cases op <;> simp [dpReg, Instr.wf, DpOp.toBits]

/-! ## Every word is the encoding of its decoded instruction -/

/-- What O28 asks of a decoded word: it is an instruction of its row and keeps every bit. -/
def KeepsWord (i : Instr) (w : Word) : Prop := i.wf = true ∧ encode i = w

theorem decodeBranch_keepsWord {w : Word} (hbranch : tBranch w = true) : KeepsWord (decodeBranch w) w := by
  have hword := wordB_fields (beq_iff_eq.mp hbranch)
  revert hword
  unfold decodeBranch
  cases w.getLsbD 24 <;> exact fun hword => ⟨rfl, hword⟩

theorem decodeMultiply_keepsWord {w : Word} (hmul : tMul w = true) : KeepsWord (decodeMultiply w) w := by
  have hmask := (tMul_iff_mask w).mp hmul
  have hword := wordM_fields (extractLsb'_of_and_eq hmask rfl) (extractLsb'_of_and_eq hmask rfl)
  revert hword
  unfold decodeMultiply
  cases w.getLsbD 21 <;> exact fun hword => ⟨rfl, hword⟩

theorem decodeSwi_keepsWord {w : Word} (hswi : tSwi w = true) : KeepsWord (decodeSwi w) w :=
  ⟨rfl, wordW_fields (extractLsb'_of_and_eq ((tSwi_iff_mask w).mp hswi) rfl)⟩

/-- Bit 25 chooses between the two values of `high3` of a DataProcessing word. -/
theorem high3_of_tDp {w : Word} (hdp : tDp w = true) : high3 w = 0b00#2 ++ BitVec.ofBool (w.getLsbD 25) := by
  have hfixed : 0b00#2 = w.extractLsb' 26 2 := ((tDp_iff_bits w).mp hdp).symm
  rw [hfixed, ofBool_getLsbD, BitVec.extractLsb'_append_extractLsb'_eq_extractLsb' (by decide), high3]

theorem decodeDp_keepsWord {w : Word} (hdp : tDp w = true) (hmul : ¬ tMul w = true) : KeepsWord (decodeDp w) w := by
  have hhigh := high3_of_tDp hdp
  unfold decodeDp
  split
  next hform =>
    rw [hform] at hhigh
    exact ⟨wf_dpImm .., (encode_dpImm ..).trans (wordDI_fields hhigh)⟩
  next hform =>
    rw [Bool.eq_false_iff.mpr hform] at hhigh
    refine ⟨(wf_dpReg ..).mpr ?_, (encode_dpReg ..).trans (wordDR_fields hhigh)⟩
    rintro ⟨hopc, hpattern⟩
    rw [DpOp.toBits_ofBits, extractLsb'_extractLsb' w 21 (by decide)] at hopc
    exact hmul ((tMul_iff_fields w).mpr ⟨hhigh, hopc, (mulPattern_shiftedRegOf w).mp hpattern⟩)

theorem decodeSdt_keepsWord {w : Word} (hsdt : tSdt w = true) : KeepsWord (decodeSdt w) w := by
  have hword := wordT_fields ((tSdt_iff_bits w).mp hsdt)
  have hwordReg := wordSR_shiftedRegOf w ▸ hword
  revert hword hwordReg
  unfold decodeSdt
  cases w.getLsbD 25 with
  | false => cases w.getLsbD 20 <;> exact fun hword _ => ⟨rfl, hword⟩
  | true => cases w.getLsbD 20 <;> exact fun _ hwordReg => ⟨rfl, hwordReg⟩

theorem decodeBdt_keepsWord {w : Word} (hbdt : tBdt w = true) : KeepsWord (decodeBdt w) w := by
  have hword := wordK_fields (beq_iff_eq.mp hbdt)
  revert hword
  unfold decodeBdt
  cases w.getLsbD 20 <;> cases Mode.ofBits (w.extractLsb' 23 2) <;> exact fun hword => ⟨rfl, hword⟩

theorem decodeRaw_keepsWord {w : Word} (hfam : classify w = .unknown) : KeepsWord (decodeRaw w) w := by
  rcases (classify_eq_unknown_iff_formatX w).mp hfam with hrow | hrow
  · have hbit : ¬ w.getLsbD 25 = true := Bool.eq_false_iff.mp (getLsbD_of_and_eq hrow (by decide))
    rw [decodeRaw, if_neg hbit]
    exact ⟨beq_iff_eq.mpr hrow, rfl⟩
  · have hbit : w.getLsbD 25 = true := getLsbD_of_and_eq hrow (by decide)
    rw [decodeRaw, if_pos hbit]
    exact ⟨beq_iff_eq.mpr hrow, rfl⟩

/-- Settles O28: the test of the word's family gives the format's fixed bits, and the join of the decoded fields with
them is the word. -/
theorem encodeInvertsDecode : Obligations.EncodeInvertsDecode := by
  intro w
  have htest := Machine.rawTest_classify (w := w)
  change KeepsWord (decode w) w
  unfold decode
  cases hfam : classify w <;> rw [hfam] at htest
  case branch => exact decodeBranch_keepsWord (htest nofun)
  case multiply => exact decodeMultiply_keepsWord (htest nofun)
  case swi => exact decodeSwi_keepsWord (htest nofun)
  case dataProcessing =>
    exact decodeDp_keepsWord (htest nofun) fun hmul => absurd (hfam.symm.trans (classify_of_tMul hmul)) nofun
  case singleTransfer => exact decodeSdt_keepsWord (htest nofun)
  case blockTransfer => exact decodeBdt_keepsWord (htest nofun)
  case unknown => exact decodeRaw_keepsWord hfam

/-! ## The rows of format B (R31): the link bit -/

section BranchRows
variable {w : Word} {link : Bool}
  (hrow : w &&& (0x0f000000 : Word) = (0x0a000000 : Word) ||| (BitVec.ofBool link).zeroExtend 32 <<< 24)
include hrow

theorem tBranch_of_branchRow : tBranch w = true := by
  refine (tBranch_iff_mask w).mpr ((and_submask_eq hrow 0x0e000000).trans ?_)
  cases link <;> decide

theorem decode_of_branchRow :
    decode w = if link then .bl (condOf w) (w.extractLsb' 0 24) else .b (condOf w) (w.extractLsb' 0 24) := by
  have hlink : w.getLsbD 24 = link := (getLsbD_of_and_eq hrow (by decide)).trans (by cases link <;> decide)
  rw [decode_of_tBranch (tBranch_of_branchRow hrow), decodeBranch, hlink]

end BranchRows

/-! ## The rows of the data-processing formats (R34): the form and the opcode -/

section DpRows
variable {w : Word} {opc : BitVec 4}

theorem fields_of_dpRow {form : Bool}
    (hrow : w &&& (0x0fe00000 : Word) = (BitVec.ofBool form).zeroExtend 32 <<< 25 ||| opc.zeroExtend 32 <<< 21) :
    tDp w = true ∧ w.getLsbD 25 = form ∧ w.extractLsb' 21 4 = opc := by
  have hpattern : ∀ (form : Bool) (opc : BitVec 4),
      let pattern : Word := (BitVec.ofBool form).zeroExtend 32 <<< 25 ||| opc.zeroExtend 32 <<< 21
      pattern.extractLsb' 26 2 = 0b00 ∧ pattern.getLsbD 25 = form ∧ pattern.extractLsb' 21 4 = opc := by decide
  obtain ⟨hfixed, hform, hopc⟩ := hpattern form opc
  exact ⟨(tDp_iff_bits w).mpr ((extractLsb'_of_and_eq hrow rfl).trans hfixed),
    (getLsbD_of_and_eq hrow (by decide)).trans hform, (extractLsb'_of_and_eq hrow rfl).trans hopc⟩

theorem high3_of_dpRow {form : Bool}
    (hrow : w &&& (0x0fe00000 : Word) = (BitVec.ofBool form).zeroExtend 32 <<< 25 ||| opc.zeroExtend 32 <<< 21) :
    high3 w = 0b00#2 ++ BitVec.ofBool form := by
  obtain ⟨hdp, hform, -⟩ := fields_of_dpRow hrow
  rw [high3_of_tDp hdp, hform]

/-- Bit 25 is clear in a Multiply word. -/
theorem decode_of_dpImmRow (hrow : w &&& (0x0fe00000 : Word) = 0x02000000 ||| (opc.zeroExtend 32 <<< 21)) :
    decode w = dpImm (DpOp.ofBits opc) (condOf w) (w.getLsbD 20) (w.extractLsb' 16 4) (w.extractLsb' 12 4)
      (rotImmOf w) := by
  obtain ⟨hdp, hform, hopc⟩ := fields_of_dpRow (form := true) hrow
  have hmul : ¬ tMul w = true := fun hmul => by
    rw [getLsbD_of_and_eq ((tMul_iff_mask w).mp hmul) (by decide)] at hform
    exact absurd hform (by decide)
  rw [decode_of_tDp hdp hmul, decodeDp, if_pos hform, hopc]

theorem decode_of_dpRegRow (hrow : w &&& (0x0fe00000 : Word) = opc.zeroExtend 32 <<< 21)
    (hmul : w &&& 0x0fc000f0 ≠ 0x00000090) :
    decode w = dpReg (DpOp.ofBits opc) (condOf w) (w.getLsbD 20) (w.extractLsb' 16 4) (w.extractLsb' 12 4)
      (shiftedRegOf w) := by
  obtain ⟨hdp, hform, hopc⟩ := fields_of_dpRow (form := false) (hrow.trans (BitVec.zero_or).symm)
  rw [decode_of_tDp hdp (mt (tMul_iff_mask w).mp hmul), decodeDp, if_neg (Bool.eq_false_iff.mp hform), hopc]

end DpRows

/-! ## The rows of format K (R37): the mode and the load bit -/

/-- The row of a mode and a load bit (R37). -/
def bdtRow (load : Bool) (m : Mode) (c : Cond) (sf wb : Bool) (rn : Reg) (list : BitVec 16) : Instr :=
  match load, m with
  | false, .da => .stmda c sf wb rn list
  | false, .ia => .stmia c sf wb rn list
  | false, .db => .stmdb c sf wb rn list
  | false, .ib => .stmib c sf wb rn list
  | true, .da => .ldmda c sf wb rn list
  | true, .ia => .ldmia c sf wb rn list
  | true, .db => .ldmdb c sf wb rn list
  | true, .ib => .ldmib c sf wb rn list

theorem decodeBdt_eq (w : Word) : decodeBdt w = bdtRow (w.getLsbD 20) (Mode.ofBits (w.extractLsb' 23 2)) (condOf w)
    (w.getLsbD 22) (w.getLsbD 21) (w.extractLsb' 16 4) (w.extractLsb' 0 16) := by
  rw [decodeBdt]
  cases w.getLsbD 20 <;> cases Mode.ofBits (w.extractLsb' 23 2) <;> rfl

section BlockRows
variable {w : Word} {m : Mode} {load : Bool} (hrow : w &&& (0x0f900000 : Word) =
  (0x08000000 : Word) ||| m.toBits.zeroExtend 32 <<< 23 ||| (BitVec.ofBool load).zeroExtend 32 <<< 20)
include hrow

theorem high3_of_blockRow : high3 w = 0b100 :=
  (extractLsb'_of_and_eq hrow rfl).trans (by cases m <;> cases load <;> decide)

theorem decode_of_blockRow :
    decode w = bdtRow load m (condOf w) (w.getLsbD 22) (w.getLsbD 21) (w.extractLsb' 16 4) (w.extractLsb' 0 16) := by
  have hmode : w.extractLsb' 23 2 = m.toBits :=
    (extractLsb'_of_and_eq hrow rfl).trans (by cases m <;> cases load <;> decide)
  have hload : w.getLsbD 20 = load :=
    (getLsbD_of_and_eq hrow (by decide)).trans (by cases m <;> cases load <;> decide)
  rw [decode_of_tBdt (beq_iff_eq.mpr (high3_of_blockRow hrow)), decodeBdt_eq, hmode, hload, Mode.ofBits_toBits]

end BlockRows

/-! ## A joined word determines its fields -/

theorem append_inj {n m : Nat} {x x' : BitVec n} {y y' : BitVec m} (h : x ++ y = x' ++ y') : x = x' ∧ y = y' :=
  ⟨by simpa [BitVec.extractLsb'_append_eq_left] using congrArg (BitVec.extractLsb' m n) h,
    by simpa [BitVec.extractLsb'_append_eq_right] using congrArg (BitVec.extractLsb' 0 m) h⟩

theorem append_inj_iff {n m : Nat} {x x' : BitVec n} {y y' : BitVec m} : x ++ y = x' ++ y' ↔ x = x' ∧ y = y' :=
  ⟨append_inj, fun ⟨hx, hy⟩ => hx ▸ hy ▸ rfl⟩

theorem Cond.toBits_inj {c c' : Cond} : c.toBits = c'.toBits ↔ c = c' :=
  (Function.LeftInverse.injective Cond.ofBits_toBits).eq_iff

theorem DpOp.toBits_inj {op op' : DpOp} : op.toBits = op'.toBits ↔ op = op' :=
  (Function.LeftInverse.injective DpOp.ofBits_toBits).eq_iff

theorem Shift.toBits_inj {sh sh' : Shift} : sh.toBits = sh'.toBits ↔ sh = sh' :=
  (Function.LeftInverse.injective Shift.ofBits_toBits).eq_iff

theorem Mode.toBits_inj {m m' : Mode} : m.toBits = m'.toBits ↔ m = m' :=
  (Function.LeftInverse.injective Mode.ofBits_toBits).eq_iff

theorem wordSR_inj {o o' : ShiftedReg} (h : wordSR o = wordSR o') : o = o' := by
  have h := append_inj h
  simp only [append_inj_iff, BitVec.ofBool_eq_iff_eq, Shift.toBits_inj] at h
  obtain ⟨⟨⟨⟨hamt, hb7⟩, hsh⟩, hbyReg⟩, hrm⟩ := h
  cases o; cases o'; congr

theorem wordB_inj {c c' : Cond} {l l' : Bool} {off24 off24' : BitVec 24} (h : wordB c l off24 = wordB c' l' off24') :
    c = c' ∧ l = l' ∧ off24 = off24' := by
  have h := append_inj h
  simp only [append_inj_iff, BitVec.ofBool_eq_iff_eq, Cond.toBits_inj] at h
  obtain ⟨⟨⟨hc, -⟩, hl⟩, hoff⟩ := h
  exact ⟨hc, hl, hoff⟩

theorem wordM_inj {c c' : Cond} {a a' sf sf' : Bool} {rd rd' rn rn' rs rs' rm rm' : Reg}
    (h : wordM c a sf rd rn rs rm = wordM c' a' sf' rd' rn' rs' rm') :
    c = c' ∧ a = a' ∧ sf = sf' ∧ rd = rd' ∧ rn = rn' ∧ rs = rs' ∧ rm = rm' := by
  have h := append_inj h
  simp only [append_inj_iff, BitVec.ofBool_eq_iff_eq, Cond.toBits_inj] at h
  obtain ⟨⟨⟨⟨⟨⟨⟨⟨hc, -⟩, ha⟩, hsf⟩, hrd⟩, hrn⟩, hrs⟩, -⟩, hrm⟩ := h
  exact ⟨hc, ha, hsf, hrd, hrn, hrs, hrm⟩

theorem wordW_inj {c c' : Cond} {comment comment' : BitVec 24} (h : wordW c comment = wordW c' comment') :
    c = c' ∧ comment = comment' := by
  have h := append_inj h
  simp only [append_inj_iff, Cond.toBits_inj] at h
  obtain ⟨⟨hc, -⟩, hcomment⟩ := h
  exact ⟨hc, hcomment⟩

theorem wordDR_inj {c c' : Cond} {op op' : DpOp} {sf sf' : Bool} {rn rn' rd rd' : Reg} {o o' : ShiftedReg}
    (h : wordDR c op sf rn rd o = wordDR c' op' sf' rn' rd' o') :
    c = c' ∧ op = op' ∧ sf = sf' ∧ rn = rn' ∧ rd = rd' ∧ o = o' := by
  have h := append_inj h
  simp only [append_inj_iff, BitVec.ofBool_eq_iff_eq, Cond.toBits_inj, DpOp.toBits_inj] at h
  obtain ⟨⟨⟨⟨⟨⟨hc, -⟩, hop⟩, hsf⟩, hrn⟩, hrd⟩, ho⟩ := h
  exact ⟨hc, hop, hsf, hrn, hrd, wordSR_inj ho⟩

theorem wordDI_inj {c c' : Cond} {op op' : DpOp} {sf sf' : Bool} {rn rn' rd rd' : Reg} {o o' : RotImm}
    (h : wordDI c op sf rn rd o = wordDI c' op' sf' rn' rd' o') :
    c = c' ∧ op = op' ∧ sf = sf' ∧ rn = rn' ∧ rd = rd' ∧ o = o' := by
  have h := append_inj h
  simp only [append_inj_iff, BitVec.ofBool_eq_iff_eq, Cond.toBits_inj, DpOp.toBits_inj] at h
  obtain ⟨⟨⟨⟨⟨⟨⟨hc, -⟩, hop⟩, hsf⟩, hrn⟩, hrd⟩, hrot⟩, himm⟩ := h
  have ho : o = o' := by cases o; cases o'; congr
  exact ⟨hc, hop, hsf, hrn, hrd, ho⟩

theorem wordT_inj {c c' : Cond} {i i' l l' : Bool} {t t' : TransferBits} {rn rn' rd rd' : Reg} {op2 op2' : BitVec 12}
    (h : wordT c i t l rn rd op2 = wordT c' i' t' l' rn' rd' op2') :
    c = c' ∧ i = i' ∧ t = t' ∧ l = l' ∧ rn = rn' ∧ rd = rd' ∧ op2 = op2' := by
  have h := append_inj h
  simp only [append_inj_iff, BitVec.ofBool_eq_iff_eq, Cond.toBits_inj] at h
  obtain ⟨⟨⟨⟨⟨⟨⟨⟨⟨⟨hc, -⟩, hi⟩, hP⟩, hU⟩, hB⟩, hW⟩, hl⟩, hrn⟩, hrd⟩, hop2⟩ := h
  have ht : t = t' := by cases t; cases t'; congr
  exact ⟨hc, hi, ht, hl, hrn, hrd, hop2⟩

theorem wordK_inj {c c' : Cond} {m m' : Mode} {sf sf' wb wb' l l' : Bool} {rn rn' : Reg} {list list' : BitVec 16}
    (h : wordK c m sf wb l rn list = wordK c' m' sf' wb' l' rn' list') :
    c = c' ∧ m = m' ∧ sf = sf' ∧ wb = wb' ∧ l = l' ∧ rn = rn' ∧ list = list' := by
  have h := append_inj h
  simp only [append_inj_iff, BitVec.ofBool_eq_iff_eq, Cond.toBits_inj, Mode.toBits_inj] at h
  obtain ⟨⟨⟨⟨⟨⟨⟨hc, -⟩, hm⟩, hsf⟩, hwb⟩, hl⟩, hrn⟩, hlist⟩ := h
  exact ⟨hc, hm, hsf, hwb, hl, hrn, hlist⟩

/-! ## The decoder on the words of each format: the fixed bits give the family, and the join of the fields it takes is
the word, so they are the fields the word was made of -/

theorem decode_wordB (c : Cond) (l : Bool) (off24 : BitVec 24) :
    decode (wordB c l off24) = if l then .bl c off24 else .b c off24 := by
  have hrow := wordB_mask c l off24
  generalize hw : wordB c l off24 = w at hrow ⊢
  obtain ⟨hc, -, hoff⟩ := wordB_inj ((wordB_fields (beq_iff_eq.mp (tBranch_of_branchRow hrow))).trans hw.symm)
  rw [decode_of_branchRow hrow, hc, hoff]

theorem decode_wordM (c : Cond) (a sf : Bool) (rd rn rs rm : Reg) :
    decode (wordM c a sf rd rn rs rm) = if a then .mla c sf rd rn rs rm else .mul c sf rd rn rs rm := by
  have hrow := wordM_mask c a sf rd rn rs rm
  generalize hw : wordM c a sf rd rn rs rm = w at hrow ⊢
  have hmask : w &&& 0x0fc000f0 = 0x00000090 := by
    refine (and_submask_eq hrow 0x0fc000f0).trans ?_
    cases a <;> decide
  obtain ⟨hc, ha, hsf, hrd, hrn, hrs, hrm⟩ :=
    wordM_inj ((wordM_fields (extractLsb'_of_and_eq hmask rfl) (extractLsb'_of_and_eq hmask rfl)).trans hw.symm)
  rw [decode_of_tMul ((tMul_iff_mask w).mpr hmask), decodeMultiply, hc, ha, hsf, hrd, hrn, hrs, hrm]

theorem decode_wordW (c : Cond) (comment24 : BitVec 24) : decode (wordW c comment24) = .swi c comment24 := by
  have hmask := wordW_mask c comment24
  obtain ⟨hc, hcomment⟩ := wordW_inj (wordW_fields (extractLsb'_of_and_eq hmask rfl))
  rw [decode_of_tSwi ((tSwi_iff_mask _).mpr hmask), hc, hcomment]

theorem decode_wordDI (c : Cond) (op : DpOp) (sf : Bool) (rn rd : Reg) (o : RotImm) :
    decode (wordDI c op sf rn rd o) = dpImm op c sf rn rd o := by
  have hrow := wordDI_mask c op sf rn rd o
  generalize hw : wordDI c op sf rn rd o = w at hrow ⊢
  obtain ⟨hc, -, hsf, hrn, hrd, ho⟩ := wordDI_inj ((wordDI_fields (high3_of_dpRow (form := true) hrow)).trans hw.symm)
  rw [decode_of_dpImmRow hrow, DpOp.ofBits_toBits, hc, hsf, hrn, hrd, ho]

/-- A register form outside the Multiply pattern is no Multiply word (R90, R91). -/
theorem decode_wordDR {c : Cond} {op : DpOp} {sf : Bool} {rn rd : Reg} {o : ShiftedReg}
    (hwf : (dpReg op c sf rn rd o).wf = true) : decode (wordDR c op sf rn rd o) = dpReg op c sf rn rd o := by
  have hrow := wordDR_mask c op sf rn rd o
  generalize hw : wordDR c op sf rn rd o = w at hrow ⊢
  have hform := high3_of_dpRow (form := false) (hrow.trans BitVec.zero_or.symm)
  obtain ⟨hc, hop, hsf, hrn, hrd, ho⟩ := wordDR_inj ((wordDR_fields hform).trans hw.symm)
  have hmul : ¬ tMul w = true := by
    intro hmul
    obtain ⟨-, hopc, hlow⟩ := (tMul_iff_fields w).mp hmul
    refine (wf_dpReg ..).mp hwf ⟨?_, ho ▸ (mulPattern_shiftedRegOf w).mpr hlow⟩
    rw [← hop, DpOp.toBits_ofBits, extractLsb'_extractLsb' w 21 (by decide)]
    exact hopc
  rw [decode_of_dpRegRow hrow (mt (tMul_iff_mask w).mpr hmul), DpOp.ofBits_toBits, hc, hsf, hrn, hrd, ho]

theorem decode_wordTI (c : Cond) (t : TransferBits) (l : Bool) (rn rd : Reg) (imm12 : BitVec 12) :
    decode (wordT c false t l rn rd imm12) = if l then .ldrI c t rn rd imm12 else .strI c t rn rd imm12 := by
  have hsdt := tSdt_of_transferRow (wordT_mask c false l t rn rd imm12)
  generalize hw : wordT c false t l rn rd imm12 = w at hsdt ⊢
  obtain ⟨hc, hi, ht, hl, hrn, hrd, himm⟩ := wordT_inj ((wordT_fields ((tSdt_iff_bits w).mp hsdt)).trans hw.symm)
  rw [decode_of_tSdt hsdt]
  simp only [decodeSdt, hc, hi, ht, hl, hrn, hrd, himm]
  cases l <;> rfl

theorem decode_wordTR (c : Cond) (t : TransferBits) (l : Bool) (rn rd : Reg) (o : ShiftedReg) :
    decode (wordT c true t l rn rd (wordSR o)) = if l then .ldrR c t rn rd o else .strR c t rn rd o := by
  have hsdt := tSdt_of_transferRow (wordT_mask c true l t rn rd (wordSR o))
  generalize hw : wordT c true t l rn rd (wordSR o) = w at hsdt ⊢
  obtain ⟨hc, hi, ht, hl, hrn, hrd, hlow⟩ := wordT_inj ((wordT_fields ((tSdt_iff_bits w).mp hsdt)).trans hw.symm)
  have ho : shiftedRegOf w = o := wordSR_inj ((wordSR_shiftedRegOf w).trans hlow)
  rw [decode_of_tSdt hsdt]
  simp only [decodeSdt, hc, hi, ht, hl, hrn, hrd, ho]
  cases l <;> rfl

theorem decode_wordK (c : Cond) (m : Mode) (sf wb l : Bool) (rn : Reg) (list : BitVec 16) :
    decode (wordK c m sf wb l rn list) = bdtRow l m c sf wb rn list := by
  have hrow := wordK_mask c m sf wb l rn list
  generalize hw : wordK c m sf wb l rn list = w at hrow ⊢
  obtain ⟨hc, -, hsf, hwb, -, hrn, hlist⟩ := wordK_inj ((wordK_fields (high3_of_blockRow hrow)).trans hw.symm)
  rw [decode_of_blockRow hrow, hc, hsf, hwb, hrn, hlist]

theorem decode_formatX {w : Word} (hfam : w &&& 0x0e000000 = 0x0c000000 ∨ w &&& 0x0f000000 = 0x0e000000) :
    decode w = decodeRaw w :=
  decode_of_classify_eq_unknown ((classify_eq_unknown_iff_formatX w).mpr hfam)

/-- Settles O27: format by format, the decoder gives back the fields of the encoded word. -/
theorem decodeInvertsEncode : Obligations.DecodeInvertsEncode := by
  intro i hwf
  cases i with
  | b | bl => exact decode_wordB ..
  | mul | mla => exact decode_wordM ..
  | swi => exact decode_wordW ..
  | andR | eorR | subR | rsbR | addR | adcR | sbcR | rscR | tstR | teqR | cmpR | cmnR | orrR | movR | bicR | mvnR =>
    exact decode_wordDR hwf
  | andI | eorI | subI | rsbI | addI | adcI | sbcI | rscI | tstI | teqI | cmpI | cmnI | orrI | movI | bicI | mvnI =>
    exact decode_wordDI ..
  | strI | ldrI => exact decode_wordTI ..
  | strR | ldrR => exact decode_wordTR ..
  | stmda | stmia | stmdb | stmib | ldmda | ldmia | ldmdb | ldmib => exact decode_wordK ..
  | rawHigh6 w =>
    have hrow : w &&& 0x0e000000 = 0x0c000000 := beq_iff_eq.mp hwf
    have hbit : ¬ w.getLsbD 25 = true := Bool.eq_false_iff.mp (getLsbD_of_and_eq hrow (by decide))
    exact (decode_formatX (.inl hrow)).trans (if_neg hbit)
  | rawHigh7 w =>
    have hrow : w &&& 0x0f000000 = 0x0e000000 := beq_iff_eq.mp hwf
    have hbit : w.getLsbD 25 = true := getLsbD_of_and_eq hrow (by decide)
    exact (decode_formatX (.inr hrow)).trans (if_pos hbit)

/-! ## The reading rule of the opcode table (R43) -/

/-- The word of a well-formed instruction matches the instruction's row (the rows of Laws/PerInstr, by format). -/
theorem encode_inRow (i : Instr) : Laws.InRow.Statement i := by
  cases i with
  | b | bl => exact fun _ => ⟨_, rfl, wordB_mask ..⟩
  | mul | mla => exact fun _ => ⟨_, rfl, wordM_mask ..⟩
  | swi => exact fun _ => ⟨_, rfl, wordW_mask ..⟩
  | andR | eorR | subR | rsbR | addR | adcR | sbcR | rscR | tstR | teqR | cmpR | cmnR | orrR | movR | bicR | mvnR =>
    exact fun _ => ⟨_, rfl, wordDR_mask ..⟩
  | andI | eorI | subI | rsbI | addI | adcI | sbcI | rscI | tstI | teqI | cmpI | cmnI | orrI | movI | bicI | mvnI =>
    exact fun _ => ⟨_, rfl, wordDI_mask ..⟩
  | strI | ldrI | strR | ldrR => exact fun _ => ⟨_, rfl, wordT_mask ..⟩
  | stmda | stmia | stmdb | stmib | ldmda | ldmia | ldmdb | ldmib => exact fun _ => ⟨_, rfl, wordK_mask ..⟩
  | rawHigh6 w => exact Laws.InRow.rawHigh6 w
  | rawHigh7 w => exact Laws.InRow.rawHigh7 w

/-- The row `r` is read before `r'`: a Multiply row before `and` or `eor`. -/
abbrev Row.Before (r r' : Row) : Prop :=
  r.priority < r'.priority ∧ (r.mnemonic = "mul" ∨ r.mnemonic = "mla") ∧ (r'.mnemonic = "and" ∨ r'.mnemonic = "eor")

/-- Two rows that one word can match are the same row, or a Multiply row and a row of `and` or `eor`. -/
theorem rows_overlap : ∀ r ∈ opcodeTable, ∀ r' ∈ opcodeTable, r.pattern &&& r'.mask = r'.pattern &&& r.mask →
    r' = r ∨ r.Before r' ∨ r'.Before r := by
  decide

/-- A word that matches a row read before `and` or `eor` is a Multiply word. -/
theorem tMul_of_multiplyRow {w : Word} {r : Row} (hr : r ∈ opcodeTable)
    (hmnemonic : r.mnemonic = "mul" ∨ r.mnemonic = "mla") (hrow : w &&& r.mask = r.pattern) : tMul w = true := by
  have hrows : ∀ r ∈ opcodeTable, r.mnemonic = "mul" ∨ r.mnemonic = "mla" →
      r.mask &&& (0x0fc000f0 : Word) = 0x0fc000f0#32 ∧ r.pattern &&& (0x0fc000f0 : Word) = 0x00000090#32 := by decide
  obtain ⟨hmask, hpattern⟩ := hrows r hr hmnemonic
  have hsub := and_submask_eq hrow 0x0fc000f0
  rw [hmask, hpattern] at hsub
  exact (tMul_iff_mask w).mpr hsub

/-- The decoded row of a Multiply word is not one of `and` or `eor`. -/
theorem row_of_tMul {w : Word} (hmul : tMul w = true) {r : Row} (hr : opcodeTable[(decode w).rowIndex]? = some r) :
    ¬ (r.mnemonic = "and" ∨ r.mnemonic = "eor") := by
  rw [decode_of_tMul hmul, decodeMultiply] at hr
  split at hr <;> cases hr <;> decide

/-- Settles O29: the decoded word's row matches because the word is its instruction's encoding (O28), and two rows that
one word matches overlap only as R43 allows; of those two the Multiply row is the decoded one. -/
theorem decodedRowHasSmallestPriority : Obligations.DecodedRowHasSmallestPriority := by
  intro w
  obtain ⟨hwf, hencode⟩ := encodeInvertsDecode w
  obtain ⟨r, hr, hrow⟩ := encode_inRow (decode w) hwf
  rw [hencode] at hrow
  refine ⟨r, hr, hrow, fun r' hr' hrow' => ?_⟩
  rcases rows_overlap r (List.mem_of_getElem? hr) r' hr' (mask_tests_agree hrow hrow') with hsame | hbefore | hafter
  · exact .inl hsame
  · exact .inr hbefore
  · obtain ⟨-, hmultiply, hlogical⟩ := hafter
    exact absurd hlogical (row_of_tMul (tMul_of_multiplyRow hr' hmultiply hrow') hr)

end Sys2Proof

/-! PROOFS. The machine as a whole (49_fallback_and_line.md section 3, 20_memory.md section 1): a step evaluates the
page on the pair presented (O52), keeps the invariant (O56, O57) and renders the stream line by line (O47, O48, O54,
O55), and the address reaches the label and the branch target alone (O58). -/

namespace Sys2Proof.Machine

/-! ## One evaluation: the state after the page's outputs for the inputs have settled -/

/-- The outputs take the page's values for the pair on the inputs (R136). -/
def State.evaluate (s : State) : State :=
  s.drive (classify s.word) (Block.fields (classify s.word) s.word) (Block.text Config.params s.addr s.word)
    (Block.computedTarget (classify s.word) s.addr s.word)

@[simp] theorem State.evaluate_baseAddr (s : State) : s.evaluate.baseAddr = s.baseAddr := rfl
@[simp] theorem State.evaluate_presented (s : State) : s.evaluate.presented = s.presented := rfl
@[simp] theorem State.evaluate_stream (s : State) : s.evaluate.stream = s.stream := rfl
@[simp] theorem State.evaluate_lines (s : State) : s.evaluate.lines = s.lines := rfl
@[simp] theorem State.evaluate_addr (s : State) : s.evaluate.addr = s.addr := rfl
@[simp] theorem State.evaluate_word (s : State) : s.evaluate.word = s.word := rfl
@[simp] theorem State.evaluate_line (s : State) : s.evaluate.line = Block.line Config.params s.addr s.word := rfl
@[simp] theorem State.evaluate_outputs (s : State) :
    s.evaluate.outputs = Block.decode Config.params s.addr s.word := rfl

theorem exec_decode_word (s : State) : exec (decode s.word) s = .next s.evaluate := decode_drivesPage s.word s

/-! ## What a step answers -/

theorem step_nil_evaluate {s : State} (hstream : s.stream = []) : step s = .next s.evaluate := by
  rw [step_nil hstream, exec_decode_word]

theorem step_cons_evaluate {s : State} {k : Chunk} {rest : List Chunk} (hstream : s.stream = k :: rest) :
    step s = .next (s.present k rest).evaluate.deliver :=
  step_cons hstream (exec_decode_word (s.present k rest))

/-- Settles O52: presenting sets the pair, evaluating drives the page's outputs for it, and delivering touches
neither. -/
theorem stepRefinesTheWholeBlock : Obligations.StepRefinesTheWholeBlock := by
  intro s
  cases hstream : s.stream with
  | nil => exact ⟨_, step_nil_evaluate hstream, by simp [State.fetch_nil s hstream]⟩
  | cons k rest => exact ⟨_, step_cons_evaluate hstream, by simp [State.fetch_cons s hstream]⟩

/-! ## The invariant -/

theorem State.settled_evaluate (s : State) : s.evaluate.Settled := s.evaluate_outputs

theorem State.Settled.line_eq {s : State} (hsettled : s.Settled) : s.line = Block.line Config.params s.addr s.word :=
  congrArg Outputs.line hsettled

/-- Evaluating a settled state again keeps the host's side: its last line is still the one on the port. -/
theorem State.Inv.evaluate {s : State} (hinv : s.Inv) : s.evaluate.Inv := by
  obtain ⟨hsettled, hlength, hlines, hlast⟩ := hinv
  refine ⟨s.settled_evaluate, hlength, hlines, fun hpos => ⟨(hlast hpos).1, ?_⟩⟩
  rw [State.evaluate_lines, State.evaluate_line, ← hsettled.line_eq]
  exact (hlast hpos).2

/-- Presenting a word, evaluating it and delivering its line adds line number `presented`, at that word's address. -/
theorem State.HostConsistent.present_evaluate_deliver {s : State} (hhost : s.HostConsistent) (k : Chunk)
    (rest : List Chunk) : (s.present k rest).evaluate.deliver.HostConsistent := by
  obtain ⟨hlength, hlines, -⟩ := hhost
  refine ⟨by simp [hlength], fun n hn => ?_, fun _ => by simp⟩
  rw [State.deliver_lines, State.evaluate_lines, State.present_lines]
  rcases Nat.lt_succ_iff_lt_or_eq.mp hn with hlt | rfl
  · rw [List.getElem?_append_left (hlength ▸ hlt)]
    exact hlines n hlt
  · exact ⟨assemble k, by simp [← hlength]⟩

/-- Settles O57: the outputs are settled after any evaluation, and the host's lines grow only by the line of the word
presented. -/
theorem stepKeepsTheInvariant : Obligations.StepKeepsTheInvariant := by
  intro s t hinv hstep
  cases hstream : s.stream with
  | nil =>
    rw [step_nil_evaluate hstream] at hstep
    cases hstep
    exact hinv.evaluate
  | cons k rest =>
    rw [step_cons_evaluate hstream] at hstep
    cases hstep
    exact ⟨State.settled_evaluate _, hinv.2.present_evaluate_deliver k rest⟩

/-- Settles O56: the all-zero pair evaluated, and a host that has presented nothing. -/
theorem resetHasTheInvariant : Obligations.ResetHasTheInvariant := by
  have hsettled : State.reset.Settled := by
    unfold State.Settled
    decide
  exact ⟨⟨hsettled, rfl, nofun, nofun⟩, rfl, rfl, rfl⟩

/-! ## Steps on a stream -/

/-- Settles O47: `decodeBytes` on the chunk's bytes is `decode` on the assembled word. -/
theorem stepRunsDecodedInstruction : Obligations.StepRunsDecodedInstruction := by
  intro s k rest i hstream hdecode _
  obtain ⟨rfl, -⟩ : decode (assemble k) = i ∧ _ := Prod.mk.inj (Except.ok.inj hdecode)
  exact ⟨_, exec_decode_word (s.present k rest), step_cons_evaluate hstream⟩

/-- Settles O48: the word on the port is evaluated again, which drives the outputs alone. -/
theorem stepWithNothingToPresent : Obligations.StepWithNothingToPresent := by
  intro s hstream
  exact ⟨_, exec_decode_word s, step_nil_evaluate hstream, hstream, rfl, rfl, rfl, rfl⟩

theorem streamAddr_succ (base : Word) (i : Nat) : streamAddr base (i + 1) = streamAddr base i + 4 := by
  unfold streamAddr
  rw [BitVec.ofNat_add, BitVec.mul_add, ← BitVec.add_assoc]
  rfl

/-- Settles O54: two steps on presented words, the second at the successor of the first's index. -/
theorem addressesStepByFour : Obligations.AddressesStepByFour := by
  intro s k k' rest hstream
  refine ⟨_, _, step_cons_evaluate hstream, step_cons_evaluate rfl, rfl, ?_, rfl, ?_⟩
  · exact streamAddr_succ s.baseAddr s.presented
  · simp

theorem run_succ_of_step {s t : State} (hstep : step s = .next t) (n : Nat) :
    Host.Core.run core (n + 1) s = Host.Core.run core n t := by
  have hcore : core.step s = .next t := hstep
  simp only [Host.Core.run, hcore]

/-- Settles O55, by induction on the stream: one step delivers the first word's line and leaves the rest of the stream
with the next index. -/
theorem runRendersTheWholeStream : Obligations.RunRendersTheWholeStream := by
  intro s
  generalize hstream : s.stream = stream
  induction stream generalizing s with
  | nil => exact ⟨s, rfl, hstream, rfl, rfl, by simp⟩
  | cons k rest ih =>
    obtain ⟨t, hrun, hdone, hbase, hpresented, hlines⟩ := ih (s.present k rest).evaluate.deliver rfl
    have hindex (n : Nat) : s.presented + 1 + n = s.presented + (n + 1) := by omega
    refine ⟨t, (run_succ_of_step (step_cons_evaluate hstream) _).trans hrun, hdone, hbase, ?_, ?_⟩
    · exact hpresented.trans (hindex rest.length)
    · simp [hlines, List.mapIdx_cons, hindex, streamAddr, assemble]

/-! ## What reads the `addr` port (R137) -/

/-- A meaning that reads `addr` in no output but the line's first part, and a branch's, which prints `addr` plus a
constant last and puts it on the target wire (R70). -/
def ReadsAddrInTargetOnly (meaning : State → Result) : Prop :=
  (∃ fam f text, fam ≠ .branch ∧ ∀ s : State, meaning s = .next (s.drive fam f text)) ∨
  (∃ (f : Fields) (front : Text) (d : Word), ∀ s : State,
    meaning s = .next (s.drive .branch f (front ++ hex8 (s.addr + d)) (some (s.addr + d))))

theorem ReadsAddrInTargetOnly.of_const {meaning : State → Result} {fam : Family} {f : Fields} {text : Text}
    (h : ∀ s, meaning s = .next (s.drive fam f text)) (hfam : fam ≠ .branch) : ReadsAddrInTargetOnly meaning :=
  .inl ⟨fam, f, text, hfam, h⟩

theorem branch_readsAddr (name : Text) (link : Bool) (c : Cond) (off24 : BitVec 24) :
    ReadsAddrInTargetOnly (branch name link c off24) := by
  refine .inr ⟨.branch ⟨c, link, off24⟩, name ++ condText c ++ " ".toList, 8 + byteOffset off24, fun s => ?_⟩
  rw [branch_eq, branchTarget, BitVec.add_assoc]

theorem exec_readsAddr (i : Instr) : ReadsAddrInTargetOnly (exec i) := by
  cases i with
  | b | bl => exact branch_readsAddr ..
  | mul | mla => exact .of_const (fun s => multiply_eq (s := s) ..) (by decide)
  | swi => exact .of_const (fun s => settle_eq s ..) (by decide)
  | andR | eorR | subR | rsbR | addR | adcR | sbcR | rscR | orrR | bicR =>
    exact .of_const (fun s => twoOperand_eq (s := s) ..) (by decide)
  | andI | eorI | subI | rsbI | addI | adcI | sbcI | rscI | orrI | bicI =>
    exact .of_const (fun s => twoOperand_eq (s := s) ..) (by decide)
  | tstR | teqR | cmpR | cmnR | tstI | teqI | cmpI | cmnI =>
    exact .of_const (fun s => comparison_eq (s := s) ..) (by decide)
  | movR | mvnR | movI | mvnI => exact .of_const (fun s => singleDestination_eq (s := s) ..) (by decide)
  | strI | ldrI | strR | ldrR => exact .of_const (fun s => singleTransfer_eq (s := s) ..) (by decide)
  | stmda | stmia | stmdb | stmib | ldmda | ldmia | ldmdb | ldmib =>
    exact .of_const (fun s => blockTransfer_eq (s := s) ..) (by decide)
  | rawHigh6 w | rawHigh7 w => exact .of_const (rawWord_eq w) (by decide)

theorem assembleLine_length (addr word : Word) (text : Text) :
    (assembleLine addr word text).length = 22 + text.length := by
  simp [assembleLine, hex8_length]
  omega

theorem assembleLine_drop_8 (addr word : Word) (text : Text) :
    (assembleLine addr word text).drop 8 = " : ".toList ++ hex8 word ++ " : ".toList ++ text := by
  have hparts : assembleLine addr word text = hex8 addr ++ (" : ".toList ++ hex8 word ++ " : ".toList ++ text) := by
    simp [assembleLine]
  rw [hparts]
  exact List.drop_left' (hex8_length addr)

/-- Without its first eight characters and a last hexadecimal numeral a line holds no digit of `addr`. -/
theorem assembleLine_middle (addr word target : Word) (front : Text) :
    ((assembleLine addr word (front ++ hex8 target)).drop 8).take (14 + front.length) =
      " : ".toList ++ hex8 word ++ " : ".toList ++ front := by
  rw [assembleLine_drop_8, ← List.append_assoc]
  refine List.take_left' ?_
  simp [hex8_length]
  omega

/-- Settles O58: outside Branch the outputs hold no `addr` but in the label; a branch's text ends in the eight digits of
the target, and what stands between is the same. -/
theorem addressReachesOnlyLabelAndTarget : Obligations.AddressReachesOnlyLabelAndTarget := by
  intro i s a
  rcases exec_readsAddr i with ⟨fam, f, text, hfam, hexec⟩ | ⟨f, front, d, hexec⟩
  · refine ⟨_, _, hexec s, hexec _, rfl, rfl, ?_, ?_, ?_, fun h => absurd h hfam⟩
    · simp [assembleLine_length]
    · simp [assembleLine_drop_8]
    · simp [assembleLine_drop_8]
  · have hlen (t : State) :
        (assembleLine t.addr t.word (front ++ hex8 (t.addr + d))).length - 16 = 14 + front.length := by
      simp [assembleLine_length, hex8_length]
      omega
    refine ⟨_, _, hexec s, hexec _, rfl, rfl, ?_, ?_, fun h => absurd rfl h, fun _ => ⟨d, rfl, rfl⟩⟩
    · simp [assembleLine_length, hex8_length]
    · simp only [State.drive_line, hlen s, assembleLine_middle]

end Sys2Proof.Machine

/-! PROOFS. What each instruction prints on its operands (42_branch.md to 49_fallback_and_line.md; O1 to O12) and leaves
unchanged (O50), and the conditions and written-out words (O30, O31). -/

namespace Sys2Proof.Machine

/-! ## The renderers in the terms of the statements; no field but the outputs changes -/

theorem branch_eq_evaluated (name : Text) (link : Bool) (c : Cond) (off24 : BitVec 24) (s : State) :
    branch name link c off24 s = evaluated s .branch (.branch ⟨c, link, off24⟩)
      (name ++ condText c ++ " ".toList ++ hex8 (branchTarget s.addr off24)) (some (branchTarget s.addr off24)) :=
  branch_eq ..

theorem twoOperand_eq_evaluated (op : DpOp) (c : Cond) (sf : Bool) (rn rd : Reg) (op2 : Operand2) (s : State) :
    twoOperand op c sf rn rd op2 s = evaluated s .dataProcessing (dpFields op c sf rn rd op2)
      (dpName op ++ condText c ++ (if sf then "s" else "").toList ++ " ".toList ++ reg rd ++ ",".toList ++ reg rn ++
        operand2Text op2) := by
  rw [twoOperand_eq, setFlagsLetter_eq_toList]; rfl

theorem comparison_eq_evaluated (op : DpOp) (c : Cond) (sf : Bool) (rn rd : Reg) (op2 : Operand2) (s : State) :
    comparison op c sf rn rd op2 s = evaluated s .dataProcessing (dpFields op c sf rn rd op2)
      (dpName op ++ condText c ++ (if rd = 15 then "p" else "").toList ++ " ".toList ++ reg rn ++
        operand2Text op2) := by
  rw [comparison_eq, comparisonLetter_eq_toList]; rfl

theorem singleDestination_eq_evaluated (op : DpOp) (c : Cond) (sf : Bool) (rn rd : Reg) (op2 : Operand2) (s : State) :
    singleDestination op c sf rn rd op2 s = evaluated s .dataProcessing (dpFields op c sf rn rd op2)
      (dpName op ++ condText c ++ (if sf then "s" else "").toList ++ " ".toList ++ reg rd ++ operand2Text op2) := by
  rw [singleDestination_eq, setFlagsLetter_eq_toList]; rfl

theorem blockTransfer_eq_evaluated (name : Text) (load : Bool) (m : Mode) (c : Cond) (sf wb : Bool) (rn : Reg)
    (list : BitVec 16) (s : State) :
    blockTransfer name load m c sf wb rn list s = evaluated s .blockTransfer
      (.blockTransfer ⟨c, m, sf, wb, load, rn, list⟩)
      (name ++ condText c ++ modeName m ++ " ".toList ++ reg rn ++ (if wb then "!" else "").toList ++ ",".toList ++
        [lbrace] ++ reglist list ++ [rbrace] ++ (if sf then "^" else "").toList) := by
  rw [blockTransfer_eq, writebackMark_eq_toList, userBankMark_eq_toList]; rfl

/-! ## The instructions -/

/-- Settles O1: the branch renderer with the link bit clear and set. -/
theorem branchInstructionsRender : Obligations.BranchInstructionsRender := by
  intro c off24 s target
  exact ⟨branch_eq_evaluated .., branch_eq_evaluated ..⟩

/-- Settles O2: without the accumulate register the text ends after operand 2. -/
theorem multiplyInstructionsRender : Obligations.MultiplyInstructionsRender := by
  intro c sf rd rn rs rm s
  refine ⟨(multiply_eq_evaluated "mul".toList false c sf rd rn rs rm s).trans ?_,
    (multiply_eq_evaluated "mla".toList true c sf rd rn rs rm s).trans ?_⟩
  · rw [if_neg Bool.false_ne_true, List.append_nil]
  · simp only [if_true, List.append_assoc]

/-- Settles O3: the swi renderer answers just this outcome. -/
theorem swiInstructionRenders : Obligations.SwiInstructionRenders := execSwi_eq_evaluated

/-- Settles O4: the ten rows are one renderer on the shifted register. -/
theorem twoOperandRegisterFormsRender : Obligations.TwoOperandRegisterFormsRender := by
  intro c sf rn rd o s out
  have hrenders (op : DpOp) := twoOperand_eq_evaluated op c sf rn rd (.reg o) s
  exact ⟨hrenders .and, hrenders .eor, hrenders .sub, hrenders .rsb, hrenders .add, hrenders .adc, hrenders .sbc,
    hrenders .rsc, hrenders .orr, hrenders .bic⟩

/-- Settles O5: the ten rows are one renderer on the rotated immediate. -/
theorem twoOperandImmediateFormsRender : Obligations.TwoOperandImmediateFormsRender := by
  intro c sf rn rd o s value out
  have hrenders (op : DpOp) := twoOperand_eq_evaluated op c sf rn rd (immOperand o) s
  exact ⟨hrenders .and, hrenders .eor, hrenders .sub, hrenders .rsb, hrenders .add, hrenders .adc, hrenders .sbc,
    hrenders .rsc, hrenders .orr, hrenders .bic⟩

/-- Settles O6: the four rows are one renderer on the shifted register. -/
theorem comparisonRegisterFormsRender : Obligations.ComparisonRegisterFormsRender := by
  intro c sf rn rd o s out
  have hrenders (op : DpOp) := comparison_eq_evaluated op c sf rn rd (.reg o) s
  exact ⟨hrenders .tst, hrenders .teq, hrenders .cmp, hrenders .cmn⟩

/-- Settles O7: the four rows are one renderer on the rotated immediate. -/
theorem comparisonImmediateFormsRender : Obligations.ComparisonImmediateFormsRender := by
  intro c sf rn rd o s value out
  have hrenders (op : DpOp) := comparison_eq_evaluated op c sf rn rd (immOperand o) s
  exact ⟨hrenders .tst, hrenders .teq, hrenders .cmp, hrenders .cmn⟩

/-- Settles O8: both rows are one renderer on the shifted register. -/
theorem singleDestinationRegisterFormsRender : Obligations.SingleDestinationRegisterFormsRender := by
  intro c sf rn rd o s out
  exact ⟨singleDestination_eq_evaluated .mov c sf rn rd (.reg o) s,
    singleDestination_eq_evaluated .mvn c sf rn rd (.reg o) s⟩

/-- Settles O9: both rows are one renderer on the rotated immediate. -/
theorem singleDestinationImmediateFormsRender : Obligations.SingleDestinationImmediateFormsRender := by
  intro c sf rn rd o s value out
  exact ⟨singleDestination_eq_evaluated .mov c sf rn rd (immOperand o) s,
    singleDestination_eq_evaluated .mvn c sf rn rd (immOperand o) s⟩

/-- Settles O10: the four rows are one renderer, by the load bit and the form of the offset. -/
theorem singleTransferFormsRender : Obligations.SingleTransferFormsRender := by
  intro c t rn rd imm12 o s out
  exact ⟨singleTransfer_eq_evaluated "str".toList false c t rn rd (.imm12 imm12) s,
    singleTransfer_eq_evaluated "ldr".toList true c t rn rd (.imm12 imm12) s,
    singleTransfer_eq_evaluated "str".toList false c t rn rd (.reg o) s,
    singleTransfer_eq_evaluated "ldr".toList true c t rn rd (.reg o) s⟩

/-- Settles O11: the eight rows are one renderer, by the load bit and the mode. -/
theorem blockTransferFormsRender : Obligations.BlockTransferFormsRender := by
  intro c sf wb rn list s out
  have hstores (m : Mode) := blockTransfer_eq_evaluated "stm".toList false m c sf wb rn list s
  have hloads (m : Mode) := blockTransfer_eq_evaluated "ldm".toList true m c sf wb rn list s
  exact ⟨hstores .da, hstores .ia, hstores .db, hstores .ib, hloads .da, hloads .ia, hloads .db, hloads .ib⟩

/-- Settles O12: both rows have the raw word's renderer. -/
theorem rawWordsRender : Obligations.RawWordsRender :=
  fun w s => ⟨rawWord_eq_evaluated w s, rawWord_eq_evaluated w s⟩

/-- Settles O30: eight closed words, decoded. -/
theorem writtenOutWordsDecode : Obligations.WrittenOutWordsDecode := by
  unfold Obligations.WrittenOutWordsDecode
  decide

/-- Settles O31: the sixteen indices, evaluated. -/
theorem conditionSuffixes : Obligations.ConditionSuffixes := by
  unfold Obligations.ConditionSuffixes
  decide

/-- Settles O50: a meaning drives the outputs and leaves the rest as it was. -/
theorem instructionsWriteOnlyTheOutputs : Obligations.InstructionsWriteOnlyTheOutputs := by
  intro i s
  obtain ⟨fam, f, text, target, hexec⟩ := exec_drives i
  exact ⟨_, hexec s, rfl, rfl, rfl, rfl, rfl, rfl⟩

end Sys2Proof.Machine

/-! PROOFS. What a word prints, on its bits: branches (42_branch.md, O13), data processing (45_data_processing.md, O16
to O18) and block transfers (48_block_data_transfer.md, O20). -/

namespace Sys2Proof.Machine

/-! ## Branches -/

/-- Settles O13: the row's mask fixes the family and the link bit, and the renderer prints the offset decoded. -/
theorem branchWordsPrintTarget : Obligations.BranchWordsPrintTarget := by
  intro s w target out
  refine ⟨fun hrow => ?_, fun hrow => ?_⟩
  · rw [decode_of_branchRow (link := false) hrow]
    exact branch_eq_evaluated ..
  · rw [decode_of_branchRow (link := true) hrow]
    exact branch_eq_evaluated ..

/-! ## Data processing -/

/-- Settles O16: the row's mask fixes the form and the opcode, and each of the ten opcodes is rendered in class A. -/
theorem twoOperandWordsPrint : Obligations.TwoOperandWordsPrint := by
  intro s row hmem w rn rd value out
  refine ⟨fun hrow => ?_, fun hrow hmul => ?_⟩
  · rw [decode_of_dpImmRow hrow]
    fin_cases hmem <;> exact twoOperand_eq_evaluated ..
  · rw [decode_of_dpRegRow hrow hmul]
    fin_cases hmem <;> exact twoOperand_eq_evaluated ..

/-- Settles O17: the row's mask fixes the form and the opcode, and each of the four opcodes is rendered in class B. -/
theorem comparisonWordsPrint : Obligations.ComparisonWordsPrint := by
  intro s row hmem w rn rd value out
  refine ⟨fun hrow => ?_, fun hrow hmul => ?_⟩
  · rw [decode_of_dpImmRow hrow]
    fin_cases hmem <;> exact comparison_eq_evaluated ..
  · rw [decode_of_dpRegRow hrow hmul]
    fin_cases hmem <;> exact comparison_eq_evaluated ..

/-- Settles O18: the row's mask fixes the form and the opcode, and both opcodes are rendered in class C. -/
theorem singleDestinationWordsPrint : Obligations.SingleDestinationWordsPrint := by
  intro s row hmem w rn rd value out
  refine ⟨fun hrow => ?_, fun hrow hmul => ?_⟩
  · rw [decode_of_dpImmRow hrow]
    fin_cases hmem <;> exact singleDestination_eq_evaluated ..
  · rw [decode_of_dpRegRow hrow hmul]
    fin_cases hmem <;> exact singleDestination_eq_evaluated ..

/-! ## Block transfers -/

theorem exec_bdtRow (load : Bool) (m : Mode) (c : Cond) (sf wb : Bool) (rn : Reg) (list : BitVec 16) (s : State) :
    exec (bdtRow load m c sf wb rn list) s =
      blockTransfer (if load then "ldm" else "stm").toList load m c sf wb rn list s := by
  cases load <;> cases m <;> rfl

/-- Settles O20: the row's mask fixes the load bit and the mode, and the renderer prints the fields decoded. -/
theorem blockTransferWordsPrint : Obligations.BlockTransferWordsPrint := by
  intro s row hmem w hrow
  have hprints (load : Bool) (m : Mode) (hrow : w &&& (0x0f900000 : Word) =
      (0x08000000 : Word) ||| m.toBits.zeroExtend 32 <<< 23 ||| (BitVec.ofBool load).zeroExtend 32 <<< 20) :=
    (congrArg (exec · s) (decode_of_blockRow hrow)).trans ((exec_bdtRow ..).trans (blockTransfer_eq_evaluated ..))
  fin_cases hmem
  exacts [⟨_, hprints false .da hrow⟩, ⟨_, hprints false .ia hrow⟩, ⟨_, hprints false .db hrow⟩,
    ⟨_, hprints false .ib hrow⟩, ⟨_, hprints true .da hrow⟩, ⟨_, hprints true .ia hrow⟩, ⟨_, hprints true .db hrow⟩,
    ⟨_, hprints true .ib hrow⟩]

end Sys2Proof.Machine

/-! PROOFS. The text primitives and the operands: the decimal numeral (41_condition_and_text.md section 3, O34), the
shifted register (46_shifted_operand.md, O36, O37), the immediate and the branch target (30_encoding.md section 3, O38,
O39) and the register list (48_block_data_transfer.md section 1, O40). -/

namespace Sys2Proof.Machine

/-! ## The decimal numeral is the library's digits, the most significant first -/

theorem decDigits_eq_digits {fuel n : Nat} (hpos : 0 < n) (hn : n < 10 ^ fuel) (acc : Text) :
    decDigits fuel n acc = ((Nat.digits 10 n).map digitChar).reverse ++ acc := by
  induction fuel generalizing n acc with
  | zero => omega
  | succ fuel ih =>
    rw [decDigits, Nat.digits_def' (by decide) hpos]
    by_cases hlast : n / 10 = 0
    · simp [hlast]
    · have hquot : n / 10 < 10 ^ fuel := by omega
      simp [hlast, ih (Nat.pos_of_ne_zero hlast) hquot]

theorem dec_zero : dec 0 = "0".toList := rfl

theorem dec_eq_digits {v : Word} (hv : v ≠ 0) : dec v = ((Nat.digits 10 v.toNat).map digitChar).reverse := by
  have hpos : 0 < v.toNat := Nat.pos_of_ne_zero fun h => hv (BitVec.eq_of_toNat_eq h)
  have hlt : v.toNat < 10 ^ 10 := by omega
  rw [dec, decDigits_eq_digits hpos hlt, List.append_nil]

theorem digitChar_decimal : ∀ d < 10, digitChar d ∈ "0123456789".toList ∧
    "0123456789".toList.idxOf (digitChar d) = d ∧ (digitChar d = '0' ↔ d = 0) := by
  decide

/-- A numeral below `10 ^ k` has at most `k` digits. -/
theorem dec_length_le {v : Word} {k : Nat} (hk : 0 < k) (hv : v.toNat < 10 ^ k) : (dec v).length ≤ k := by
  by_cases hzero : v = 0
  · subst hzero
    exact hk
  · rw [dec_eq_digits hzero, List.length_reverse, List.length_map]
    exact (Nat.digits_length_le_iff (by decide) _).mpr hv

theorem dec_digit_mem {v : Word} {ch : Char} (hch : ch ∈ dec v) : ch ∈ "0123456789".toList := by
  by_cases hzero : v = 0
  · rw [hzero, dec_zero] at hch
    obtain rfl := List.mem_singleton.mp hch
    decide
  · rw [dec_eq_digits hzero, List.mem_reverse, List.mem_map] at hch
    obtain ⟨d, hd, rfl⟩ := hch
    exact (digitChar_decimal d (Nat.digits_lt_base (by decide) hd)).1

theorem dec_value (v : Word) : (dec v).foldl (fun n ch => 10 * n + "0123456789".toList.idxOf ch) 0 = v.toNat := by
  by_cases hzero : v = 0
  · subst hzero
    decide
  · have hdigits : ∀ d ∈ Nat.digits 10 v.toNat, ∀ n,
        10 * n + "0123456789".toList.idxOf (digitChar d) = d + 10 * n := by
      intro d hd n
      rw [(digitChar_decimal d (Nat.digits_lt_base (by decide) hd)).2.1, Nat.add_comm]
    rw [dec_eq_digits hzero, List.foldl_reverse, List.foldr_map]
    calc (Nat.digits 10 v.toNat).foldr (fun d n => 10 * n + "0123456789".toList.idxOf (digitChar d)) 0
      _ = (Nat.digits 10 v.toNat).foldr (fun d n => d + 10 * n) 0 := List.foldr_ext _ _ _ hdigits
      _ = Nat.ofDigits 10 (Nat.digits 10 v.toNat) := (Nat.ofDigits_eq_foldr ..).symm
      _ = v.toNat := Nat.ofDigits_digits ..

theorem dec_head?_eq_zero_iff (v : Word) : (dec v).head? = some '0' ↔ v = 0 := by
  refine ⟨fun hhead => ?_, fun hzero => by subst hzero; decide⟩
  by_contra hzero
  have hpos : v.toNat ≠ 0 := fun h => hzero (BitVec.eq_of_toNat_eq h)
  have hne : Nat.digits 10 v.toNat ≠ [] := Nat.digits_ne_nil_iff_ne_zero.mpr hpos
  rw [dec_eq_digits hzero, List.head?_reverse, List.getLast?_map, List.getLast?_eq_some_getLast hne, Option.map_some,
    Option.some_inj] at hhead
  have hlt := Nat.digits_lt_base (b := 10) (by decide) (List.getLast_mem hne)
  exact Nat.getLast_digit_ne_zero 10 hpos ((digitChar_decimal _ hlt).2.2.mp hhead)

/-- Settles O34: the numeral is the library's digits, whose value, last digit and number are known. -/
theorem decIsTheDecimalNumeral : Obligations.DecIsTheDecimalNumeral := by
  intro v
  refine ⟨fun _ => dec_digit_mem, dec_value v, dec_head?_eq_zero_iff v, ?_, dec_length_le (by decide) (by omega)⟩
  rintro rfl
  decide

/-! ## The shifted register -/

/-- Settles O36: the page's `shreg`, each case on its bits. -/
theorem shiftPrintedExactlyWhenBitsNonzero : Obligations.ShiftPrintedExactlyWhenBitsNonzero := by
  intro w
  rw [shreg_shiftedRegOf, Block.shiftedRegister, shiftName_ofBits]
  refine ⟨fun hzero => ?_, fun hnonzero => ?_⟩
  · rw [if_neg (not_not.mpr hzero), List.append_nil]
  · rw [if_pos hnonzero]
    simp only [List.append_assoc]

theorem extractLsb'_xor_of_zero {n : Nat} (w x : BitVec n) {start len : Nat} (hx : x.extractLsb' start len = 0) :
    (w ^^^ x).extractLsb' start len = w.extractLsb' start len := by
  rw [BitVec.extractLsb'_xor, hx]
  exact BitVec.xor_zero

/-- Bits 11:8 are bits 11:7 shifted right by one. -/
theorem extractLsb'_7_5_ushiftRight (w : Word) :
    (w.extractLsb' 7 5).zeroExtend 32 >>> 1 = (w.extractLsb' 8 4).zeroExtend 32 := by
  ext i hi
  have hbit : 7 + (1 + i) = 8 + i := by omega
  have hlt : 1 + i < 5 ↔ i < 4 := by omega
  simp [hbit, hlt]
  omega

/-- Settles O37: bit 7 is in none of the fields printed. -/
theorem shiftAmountIsFourBits : Obligations.ShiftAmountIsFourBits := by
  intro w
  refine ⟨fun hw hflipped => ?_, fun hw hbit => ?_⟩
  · have hbit : (w ^^^ 0x80).getLsbD 4 = w.getLsbD 4 := by simp
    rw [(shiftPrintedExactlyWhenBitsNonzero w).2 hw, (shiftPrintedExactlyWhenBitsNonzero _).2 hflipped, hbit,
      extractLsb'_xor_of_zero w 0x80 rfl, extractLsb'_xor_of_zero w 0x80 rfl, extractLsb'_xor_of_zero w 0x80 rfl]
  · rw [(shiftPrintedExactlyWhenBitsNonzero w).2 hw, hbit, extractLsb'_7_5_ushiftRight]
    rfl

/-! ## The immediate -/

/-- The byte reaches bit `i` of the low half only for `k ≤ i`, and then bit `32 + i` lies past its end. -/
theorem accumulator_halves_disjoint (b : BitVec 8) (k : Nat) :
    (b.zeroExtend 64 <<< k).extractLsb' 0 32 &&& (b.zeroExtend 64 <<< k).extractLsb' 32 32 = 0 := by
  ext i hi
  have hlow : i < 64 := by omega
  have hhigh : 32 + i < 64 := by omega
  have hpast : k ≤ i → b.getLsbD (32 + i - k) = false := fun hki => BitVec.getLsbD_of_ge b _ (by omega)
  simpa [hlow, hhigh] using fun hki _ _ => hpast hki

/-- Settles O38: the rotation is the fold of the accumulator, whose halves are disjoint, so `or` is `add`. -/
theorem immediateIsShiftAndFold : Obligations.ImmediateIsShiftAndFold := by
  intro o acc
  have hk : 2 * o.rot.toNat < 32 := by omega
  have hbyte : (o.imm8.setWidth 32).setWidth 64 = o.imm8.setWidth 64 := BitVec.setWidth_setWidth (by decide)
  have hfold : imm32 o = acc.extractLsb' 0 32 ||| acc.extractLsb' 32 32 := by
    rw [imm32, BitVec.zeroExtend, rotateLeft_eq_fold _ hk, hbyte]
  have hdisjoint := accumulator_halves_disjoint o.imm8 (2 * o.rot.toNat)
  exact ⟨hfold, hfold.trans (BitVec.add_eq_or_of_and_eq_zero _ _ hdisjoint).symm, hdisjoint⟩

/-! ## The branch target -/

theorem branchTarget_toNat (a : Word) (off24 : BitVec 24) :
    ((branchTarget a off24).toNat : Int) = ((a.toNat : Int) + 8 + 4 * off24.toInt) % 2 ^ 32 := by
  have hsext : (off24.signExtend 32).toInt = off24.toInt := BitVec.toInt_signExtend_of_le (by decide)
  rw [branchTarget, byteOffset, ← hsext]
  generalize off24.signExtend 32 = off
  rw [BitVec.toInt_eq_toNat_cond]
  simp [BitVec.toNat_add, BitVec.toNat_shiftLeft, Nat.shiftLeft_eq]
  omega

/-- The byte offset and the 8 are multiples of 4. -/
theorem branchTarget_low2 (a : Word) (off24 : BitVec 24) :
    (branchTarget a off24).extractLsb' 0 2 = a.extractLsb' 0 2 := by
  refine BitVec.eq_of_toNat_eq ?_
  simp [branchTarget, byteOffset, BitVec.toNat_add, BitVec.toNat_shiftLeft, Nat.shiftLeft_eq]
  omega

/-- Settles O39: the sum in integers modulo 2^32; each listed offset makes the added constant a numeral. -/
theorem branchTargetArithmetic : Obligations.BranchTargetArithmetic := by
  intro a off24
  have hconst (off24 : BitVec 24) (d : Word) (hd : 8 + byteOffset off24 = d) : branchTarget a off24 = a + d := by
    rw [branchTarget, BitVec.add_assoc, hd]
  exact ⟨branchTarget_toNat a off24, branchTarget_low2 a off24, (hconst _ 0 (by decide)).trans (BitVec.add_zero a),
    hconst _ _ (by decide), hconst _ _ (by decide),
    (hconst _ (-0x01fffff8) (by decide)).trans (BitVec.sub_eq_add_neg ..).symm⟩

/-! ## The register list -/

/-- The numbers of the set bits, ascending, as numbers below 16. -/
def listedRegs (list : BitVec 16) : List (Fin 16) := (List.finRange 16).filter fun i => list.getLsbD i.val

theorem listed_eq_map_listedRegs (list : BitVec 16) : listed list = (listedRegs list).map Fin.val := by
  rw [listed, listedRegs, ← List.map_coe_finRange_eq_range, List.filter_map]
  rfl

/-- Settles O40: the listed numbers are those of a filter of the ascending numbers below 16. -/
theorem registerListAscending : Obligations.RegisterListAscending := by
  intro list
  refine ⟨listedRegs list, (List.pairwise_lt_finRange 16).filter _, fun i => ?_, ?_, ?_⟩
  · simp [listedRegs]
  · rw [reglist, listed_eq_map_listedRegs, List.map_map]
    have hreg (i : Fin 16) : reg (BitVec.ofNat 4 i.val) = reg (BitVec.ofFin i) :=
      congrArg reg (BitVec.eq_of_toNat_eq (Nat.mod_eq_of_lt i.isLt))
    exact congrArg _ (List.map_congr_left fun i _ => hreg i)
  · rintro rfl
    decide

end Sys2Proof.Machine

/-! PROOFS. The ignored bits (30_encoding.md section 5; O41, O42): two words that agree on the bits a renderer reads
have one family and one text. -/

namespace Sys2Proof

/-! ## Words that agree on the bits of a mask -/

section Agree
variable {n : Nat} {v w keep : BitVec n} (hagree : v &&& keep = w &&& keep)
include hagree

theorem extractLsb'_eq_of_agree {start len : Nat} (hkeep : keep.extractLsb' start len = BitVec.allOnes len) :
    v.extractLsb' start len = w.extractLsb' start len := by
  rw [extractLsb'_of_and_eq hagree hkeep, BitVec.extractLsb'_and, hkeep, BitVec.and_allOnes]

theorem getLsbD_eq_of_agree {i : Nat} (hkeep : keep.getLsbD i = true) : v.getLsbD i = w.getLsbD i := by
  rw [getLsbD_of_and_eq hagree hkeep, BitVec.getLsbD_and, hkeep, Bool.and_true]

theorem agree_submask (sub : BitVec n) : v &&& (keep &&& sub) = w &&& (keep &&& sub) := by
  rw [← BitVec.and_assoc, hagree, BitVec.and_assoc]

end Agree

theorem condOf_congr {v w : Word} (hcond : v.extractLsb' 28 4 = w.extractLsb' 28 4) : condOf v = condOf w :=
  congrArg Cond.ofBits hcond

theorem shiftedRegOf_congr {v w : Word} (hlow : v.extractLsb' 0 12 = w.extractLsb' 0 12) :
    shiftedRegOf v = shiftedRegOf w :=
  wordSR_inj (by rw [wordSR_shiftedRegOf, wordSR_shiftedRegOf, hlow])

theorem rotImmOf_congr {v w : Word} (hlow : v.extractLsb' 0 12 = w.extractLsb' 0 12) : rotImmOf v = rotImmOf w := by
  have hfield (start len : Nat) (hfit : start + len ≤ 12) : v.extractLsb' start len = w.extractLsb' start len := by
    rw [← BitVec.extractLsb'_extractLsb'_of_le hfit, hlow, BitVec.extractLsb'_extractLsb'_of_le hfit]
  rw [rotImmOf, hfield 8 4 (by decide), hfield 0 8 (by decide), rotImmOf]

end Sys2Proof

namespace Sys2Proof.Machine

/-- Two evaluations answer next states with one family and one text. -/
def SameText (s t : State) : Prop :=
  ∃ s' t', exec (decode s.word) s = .next s' ∧ exec (decode t.word) t = .next t' ∧ s'.family = t'.family ∧
    s'.line.drop 22 = t'.line.drop 22

theorem sameText_of_page {s t : State} (hfam : classify s.word = classify t.word)
    (htext : Block.text Config.params s.addr s.word = Block.text Config.params t.addr t.word) : SameText s t := by
  refine ⟨_, _, exec_decode_word s, exec_decode_word t, hfam, ?_⟩
  exact (assembleLine_drop_22 ..).trans (htext.trans (assembleLine_drop_22 ..).symm)

/-! ## Multiply without accumulate -/

theorem textMultiply_congr {v w : Word} (hv : v &&& 0x0fe000f0 = 0x00000090)
    (hagree : v &&& 0xffff0fff = w &&& 0xffff0fff) : Block.textMultiply v = Block.textMultiply w := by
  have hacc : v.getLsbD 21 = false := getLsbD_of_and_eq hv (by decide)
  have hacc' : w.getLsbD 21 = false := (getLsbD_eq_of_agree hagree (by decide)).symm.trans hacc
  simp only [Block.textMultiply, Block.condSuffix, extractLsb'_eq_of_agree hagree (start := 28) (len := 4) rfl,
    hacc, hacc', Bool.false_eq_true, if_false, getLsbD_eq_of_agree hagree (i := 20) (by decide),
    extractLsb'_eq_of_agree hagree (start := 16) (len := 4) rfl,
    extractLsb'_eq_of_agree hagree (start := 0) (len := 4) rfl,
    extractLsb'_eq_of_agree hagree (start := 8) (len := 4) rfl]

theorem sameText_of_mulRow {s t : State} (hrow : s.word &&& 0x0fe000f0 = 0x00000090)
    (hagree : s.word &&& 0xffff0fff = t.word &&& 0xffff0fff) : SameText s t := by
  have hmul : tMul s.word = true := (tMul_iff_mask _).mpr (and_submask_eq hrow 0x0fc000f0)
  have hmul' : tMul t.word = true :=
    (tMul_iff_mask _).mpr ((agree_submask hagree 0x0fc000f0).symm.trans ((tMul_iff_mask _).mp hmul))
  have hfam := classify_of_tMul hmul
  have hfam' := classify_of_tMul hmul'
  refine sameText_of_page (hfam.trans hfam'.symm) ?_
  rw [Block.text, Block.text, hfam, hfam']
  exact textMultiply_congr hrow hagree

/-! ## Data processing: the comparisons and the single-destination forms -/

theorem dpHead_comparison {op : DpOp} (hop : op = .tst ∨ op = .teq ∨ op = .cmp ∨ op = .cmn) (c : Cond) (sf : Bool)
    (rn rd : Reg) :
    dpHead op c sf rn rd = dpName op ++ condText c ++ comparisonLetter rd ++ " ".toList ++ reg rn := by
  rcases hop with rfl | rfl | rfl | rfl <;> rfl

theorem dpHead_singleDestination {op : DpOp} (hop : op = .mov ∨ op = .mvn) (c : Cond) (sf : Bool) (rn rd : Reg) :
    dpHead op c sf rn rd = dpName op ++ condText c ++ setFlagsLetter sf ++ " ".toList ++ reg rd := by
  rcases hop with rfl | rfl <;> rfl

theorem operand2Of_congr {v w : Word} (hform : v.getLsbD 25 = w.getLsbD 25)
    (hlow : v.extractLsb' 0 12 = w.extractLsb' 0 12) : operand2Of v = operand2Of w := by
  rw [operand2Of, operand2Of, hform, rotImmOf_congr hlow, shiftedRegOf_congr hlow]

/-- Bits 27:26 are 00 and bit 24 is set: the word is of family DataProcessing, since bit 24 is clear in a Multiply
word. -/
theorem classify_of_bits27To24 {w : Word} (hrow : w &&& 0x0d000000 = 0x01000000) : classify w = .dataProcessing := by
  have hdp : tDp w = true := (tDp_iff_bits w).mpr (extractLsb'_of_and_eq hrow rfl)
  refine classify_of_tDp hdp fun hmul => ?_
  exact absurd (mask_tests_agree hrow ((tMul_iff_mask w).mp hmul)) (by decide)

theorem sameText_of_dpRow {s t : State} (hrow : s.word &&& 0x0d000000 = 0x01000000)
    (hrow' : t.word &&& 0x0d000000 = 0x01000000) (htext : Block.textDp s.word = Block.textDp t.word) :
    SameText s t := by
  have hfam := classify_of_bits27To24 hrow
  have hfam' := classify_of_bits27To24 hrow'
  refine sameText_of_page (hfam.trans hfam'.symm) ?_
  rw [Block.text, Block.text, hfam, hfam']
  exact htext

/-- D18 and R106: of the set-flags bit and the destination a comparison prints the letter `p` alone. -/
theorem sameText_of_comparisonRow {s t : State} (hrow : s.word &&& 0x0d800000 = 0x01000000)
    (hagree : s.word &&& 0xffef0fff = t.word &&& 0xffef0fff)
    (hletter : comparisonLetter (s.word.extractLsb' 12 4) = comparisonLetter (t.word.extractLsb' 12 4)) :
    SameText s t := by
  have hop : ∀ x : BitVec 4, x.extractLsb' 2 2 = 0b10 →
      DpOp.ofBits x = .tst ∨ DpOp.ofBits x = .teq ∨ DpOp.ofBits x = .cmp ∨ DpOp.ofBits x = .cmn := by decide
  have hopc : (s.word.extractLsb' 21 4).extractLsb' 2 2 = 0b10 := by
    rw [extractLsb'_extractLsb' s.word 21 (by decide)]
    exact extractLsb'_of_and_eq hrow rfl
  have hrow' : t.word &&& 0x0d800000 = 0x01000000 := (agree_submask hagree 0x0d800000).symm.trans hrow
  refine sameText_of_dpRow (and_submask_eq hrow 0x0d000000) (and_submask_eq hrow' 0x0d000000) ?_
  have hop2 : operand2Of s.word = operand2Of t.word :=
    operand2Of_congr (getLsbD_eq_of_agree hagree (by decide)) (extractLsb'_eq_of_agree hagree rfl)
  rw [textDp_eq, textDp_eq, hop2, ← extractLsb'_eq_of_agree hagree (start := 21) (len := 4) rfl,
    dpHead_comparison (hop _ hopc), dpHead_comparison (hop _ hopc), hletter,
    condOf_congr (extractLsb'_eq_of_agree hagree rfl),
    extractLsb'_eq_of_agree hagree (start := 16) (len := 4) rfl]

/-- R86 class C: the first-operand field is not printed. -/
theorem sameText_of_singleDestinationRow {s t : State} (hrow : s.word &&& 0x0da00000 = 0x01a00000)
    (hagree : s.word &&& 0xfff0ffff = t.word &&& 0xfff0ffff) : SameText s t := by
  have hop : ∀ x : BitVec 4, x.extractLsb' 2 2 = 0b11 → x.getLsbD 0 = true →
      DpOp.ofBits x = .mov ∨ DpOp.ofBits x = .mvn := by decide
  have hopc : (s.word.extractLsb' 21 4).extractLsb' 2 2 = 0b11 := by
    rw [extractLsb'_extractLsb' s.word 21 (by decide)]
    exact extractLsb'_of_and_eq hrow rfl
  have hbit : (s.word.extractLsb' 21 4).getLsbD 0 = true := by
    rw [BitVec.getLsbD_extractLsb']
    exact getLsbD_of_and_eq (i := 21) hrow (by decide)
  have hrow' : t.word &&& 0x0da00000 = 0x01a00000 := (agree_submask hagree 0x0da00000).symm.trans hrow
  refine sameText_of_dpRow (and_submask_eq hrow 0x0d000000) (and_submask_eq hrow' 0x0d000000) ?_
  have hop2 : operand2Of s.word = operand2Of t.word :=
    operand2Of_congr (getLsbD_eq_of_agree hagree (by decide)) (extractLsb'_eq_of_agree hagree rfl)
  rw [textDp_eq, textDp_eq, hop2, ← extractLsb'_eq_of_agree hagree (start := 21) (len := 4) rfl,
    dpHead_singleDestination (hop _ hopc hbit), dpHead_singleDestination (hop _ hopc hbit),
    condOf_congr (extractLsb'_eq_of_agree hagree rfl),
    getLsbD_eq_of_agree hagree (i := 20) (by decide), extractLsb'_eq_of_agree hagree (start := 12) (len := 4) rfl]

theorem comparisonLetter_of_ne {rd : Reg} (hrd : rd ≠ 15) : comparisonLetter rd = [] := if_neg hrd

/-- Settles O41: in each clause the two words agree on all that their renderer prints, a comparison's destination field
through its letter `p` alone. -/
theorem ignoredBitsChangeNoText : Obligations.IgnoredBitsChangeNoText := by
  intro s t agree same
  refine ⟨sameText_of_mulRow, fun hrow hagree hrd hrd' => ?_, fun hrow hagree => ?_, sameText_of_singleDestinationRow⟩
  · refine sameText_of_comparisonRow hrow hagree ?_
    rw [comparisonLetter_of_ne hrd, comparisonLetter_of_ne hrd']
  · refine sameText_of_comparisonRow hrow (agree_submask hagree 0xffef0fff) ?_
    rw [extractLsb'_eq_of_agree hagree (start := 12) (len := 4) rfl]

/-! ## Single data transfer -/

theorem textSdt_congr {v w : Word} (hagree : v &&& 0xfe5ff000 = w &&& 0xfe5ff000)
    (hoffset : v.getLsbD 25 = true → v.extractLsb' 0 12 = w.extractLsb' 0 12) (p : Params) :
    Block.textSdt p v = Block.textSdt p w := by
  have hoff : (if v.getLsbD 25 then Block.shiftedRegister v else p.placeholder) =
      if w.getLsbD 25 then Block.shiftedRegister w else p.placeholder := by
    rw [← getLsbD_eq_of_agree hagree (i := 25) (by decide)]
    split
    next hform => rw [← shreg_shiftedRegOf, ← shreg_shiftedRegOf, shiftedRegOf_congr (hoffset hform)]
    next => rfl
  simp only [Block.textSdt, hoff, Block.condSuffix, extractLsb'_eq_of_agree hagree (start := 28) (len := 4) rfl,
    getLsbD_eq_of_agree hagree (i := 20) (by decide), getLsbD_eq_of_agree hagree (i := 22) (by decide),
    extractLsb'_eq_of_agree hagree (start := 16) (len := 4) rfl,
    extractLsb'_eq_of_agree hagree (start := 12) (len := 4) rfl]

theorem sameText_of_transferRow {s t : State} (hrow : s.word &&& 0x0c000000 = 0x04000000)
    (hagree : s.word &&& 0xfe5ff000 = t.word &&& 0xfe5ff000)
    (hoffset : s.word.getLsbD 25 = true → s.word.extractLsb' 0 12 = t.word.extractLsb' 0 12) : SameText s t := by
  have hfam := classify_of_tSdt ((tSdt_iff_mask s.word).mpr hrow)
  have hfam' := classify_of_tSdt ((tSdt_iff_mask t.word).mpr ((agree_submask hagree 0x0c000000).symm.trans hrow))
  refine sameText_of_page (hfam.trans hfam'.symm) ?_
  rw [Block.text, Block.text, hfam, hfam']
  exact textSdt_congr hagree hoffset _

/-- Settles O42: the low 12 bits are compared only in the register form, where they are printed. -/
theorem transferOptionBitsNotRendered : Obligations.TransferOptionBitsNotRendered := by
  intro s t agree same
  refine ⟨fun hrow hagree => ?_, fun hrow hagree => ?_⟩
  · exact sameText_of_transferRow hrow (agree_submask hagree 0xfe5ff000) fun _ => extractLsb'_eq_of_agree hagree rfl
  · have hform : s.word.getLsbD 25 = false := getLsbD_of_and_eq hrow (by decide)
    exact sameText_of_transferRow (and_submask_eq hrow 0x0c000000) hagree fun h => absurd (hform.symm.trans h) nofun

end Sys2Proof.Machine

/-! PROOFS. The output grammar (30_encoding.md R47): every line is in it (O45), and its characters are those of its
literals and of the two strings (O46). -/

namespace Sys2Proof.Machine

/-! ## Membership in a language, by its operators -/

theorem Lang.seq.cons {a : Lang} {rest : List Lang} {u v : Text} (hu : a u) (hv : Lang.seq rest v) :
    Lang.seq (a :: rest) (u ++ v) :=
  ⟨u, v, rfl, hu, hv⟩

theorem Lang.seq.last {a : Lang} {u : Text} (hu : a u) : Lang.seq [a] u :=
  ⟨u, [], (List.append_nil u).symm, hu, rfl⟩

theorem Lang.oneOf_of_mem {ts : List String} {t : String} (ht : t ∈ ts) : Lang.oneOf ts t.toList := ⟨t, ht, rfl⟩

theorem Lang.oneOf_ite {ts : List String} {c : Prop} [Decidable c] {t u : String} (ht : t ∈ ts) (hu : u ∈ ts) :
    Lang.oneOf ts (if c then t else u).toList :=
  ⟨_, by split <;> assumption, rfl⟩

theorem Lang.opt_ite {c : Prop} [Decidable c] (t : String) : Lang.opt (.oneOf [t]) (if c then t else "").toList := by
  split
  · exact .inr ⟨t, List.mem_singleton_self t, rfl⟩
  · exact .inl rfl

/-! ## The productions of the text primitives and the operands -/

theorem hex8_mem_grammar (v : Word) : Grammar.hex8 (hex8 v) := ⟨hex8_length v, fun _ => hex8_digit_mem⟩

theorem dec_mem_grammar (v : Word) : Grammar.dec (dec v) := by
  by_cases hzero : v = 0
  · exact .inl (hzero ▸ dec_zero)
  · obtain ⟨last, hlast, -⟩ := endsVisibly_dec v
    cases hdec : dec v with
    | nil => simp [hdec] at hlast
    | cons d ds =>
      have hdigit : ∀ ch ∈ d :: ds, ch ∈ "0123456789".toList := fun ch hch => dec_digit_mem (hdec ▸ hch)
      have hhead : d ≠ '0' := fun h => hzero ((dec_head?_eq_zero_iff v).mp (by rw [hdec, h, List.head?_cons]))
      refine .inr ⟨d, ds, rfl, ?_, fun ch hch => hdigit ch (List.mem_cons_of_mem d hch)⟩
      exact (List.mem_cons.mp (hdigit d List.mem_cons_self)).resolve_left hhead

theorem reg_mem_grammar (n : Reg) : Grammar.reg (reg n) := by
  unfold Grammar.reg Lang.oneOf
  revert n
  decide

theorem condSuffix_mem_grammar (w : Word) : Grammar.cond (Block.condSuffix w) := by
  unfold Block.condSuffix Grammar.cond Lang.oneOf
  generalize w.extractLsb' 28 4 = x
  revert x
  decide

theorem shiftName_mem_grammar (x : BitVec 2) : Grammar.shift (entry SHIFT x.toNat) := by
  unfold Grammar.shift Lang.oneOf
  revert x
  decide

theorem modeName_mem_grammar (x : BitVec 2) : Grammar.mode (entry MODE x.toNat) := by
  unfold Grammar.mode Lang.oneOf
  revert x
  decide

theorem literal_mem_oneOf (t : String) : Lang.oneOf [t] t.toList := Lang.oneOf_of_mem (List.mem_singleton_self t)

theorem shiftedRegister_mem_grammar (w : Word) : Grammar.shreg (Block.shiftedRegister w) := by
  have hamount : Lang.alt Grammar.reg Grammar.dec
      (if w.getLsbD 4 then reg (w.extractLsb' 8 4) else dec ((w.extractLsb' 8 4).zeroExtend 32)) := by
    split
    · exact .inl (reg_mem_grammar _)
    · exact .inr (dec_mem_grammar _)
  unfold Block.shiftedRegister Grammar.shreg
  simp only [List.append_assoc]
  refine .cons (literal_mem_oneOf ",") <| .cons (reg_mem_grammar _) <| .last ?_
  split
  · exact .inr <| .cons (literal_mem_oneOf " ") <| .cons (shiftName_mem_grammar _) <| .cons (literal_mem_oneOf " ") <|
      .last hamount
  · exact .inl rfl

theorem regs_mem_grammar (list : BitVec 16) : Grammar.regs (Block.listFrom list 16 0 []) := by
  rw [← reglist_eq_listFrom]
  refine ⟨_, fun t ht => ?_, rfl⟩
  obtain ⟨i, -, rfl⟩ := List.mem_map.mp ht
  exact reg_mem_grammar _

/-! ## The productions of the families -/

theorem textBranch_mem_grammar (addr w : Word) : Grammar.branch (Block.textBranch addr w) := by
  unfold Block.textBranch Grammar.branch
  simp only [List.append_assoc]
  exact .cons (Lang.oneOf_ite (by decide) (by decide)) <| .cons (condSuffix_mem_grammar w) <|
    .cons (literal_mem_oneOf " ") <| .last (hex8_mem_grammar _)

theorem textMultiply_mem_grammar (w : Word) : Grammar.multiply (Block.textMultiply w) := by
  unfold Block.textMultiply Grammar.multiply
  cases w.getLsbD 21 with
  | false =>
    simp only [Bool.false_eq_true, if_false, List.append_nil, List.append_assoc]
    exact .inl <| .cons (literal_mem_oneOf "mul") <| .cons (condSuffix_mem_grammar w) <| .cons (Lang.opt_ite "s") <|
      .cons (literal_mem_oneOf " ") <| .cons (reg_mem_grammar _) <| .cons (literal_mem_oneOf ",") <|
      .cons (reg_mem_grammar _) <| .cons (literal_mem_oneOf ",") <| .last (reg_mem_grammar _)
  | true =>
    simp only [if_true, List.append_assoc]
    exact .inr <| .cons (literal_mem_oneOf "mla") <| .cons (condSuffix_mem_grammar w) <| .cons (Lang.opt_ite "s") <|
      .cons (literal_mem_oneOf " ") <| .cons (reg_mem_grammar _) <| .cons (literal_mem_oneOf ",") <|
      .cons (reg_mem_grammar _) <| .cons (literal_mem_oneOf ",") <| .cons (reg_mem_grammar _) <|
      .cons (literal_mem_oneOf ",") <| .last (reg_mem_grammar _)

theorem textSwi_mem_grammar (w : Word) : Grammar.swi (Block.textSwi w) := by
  unfold Block.textSwi Grammar.swi
  simp only [List.append_assoc]
  exact .cons (literal_mem_oneOf "swi") <| .cons (condSuffix_mem_grammar w) <| .cons (literal_mem_oneOf " ") <|
    .last (dec_mem_grammar _)

/-- The names of each class of opcodes (R86). -/
theorem dpName_of_class : ∀ opc : BitVec 4,
    if opc.getLsbD 3 = false ∨ opc = 0xc ∨ opc = 0xe then
      Lang.oneOf ["and", "eor", "sub", "rsb", "add", "adc", "sbc", "rsc", "orr", "bic"] (entry DPNAME opc.toNat)
    else if opc.extractLsb' 2 2 = 0b10 then Lang.oneOf ["tst", "teq", "cmp", "cmn"] (entry DPNAME opc.toNat)
    else Lang.oneOf ["mov", "mvn"] (entry DPNAME opc.toNat) := by
  unfold Lang.oneOf
  decide

theorem textDp_mem_grammar (w : Word) : Grammar.dp (Block.textDp w) := by
  have hop2 : Grammar.op2
      (if w.getLsbD 25 then ",".toList ++ dec (Block.immediate w) else Block.shiftedRegister w) := by
    split
    · exact .inl <| .cons (literal_mem_oneOf ",") <| .last (dec_mem_grammar _)
    · exact .inr (shiftedRegister_mem_grammar w)
  have hname := dpName_of_class (w.extractLsb' 21 4)
  unfold Block.textDp Grammar.dp
  dsimp only
  split
  next hclass =>
    rw [if_pos hclass] at hname
    simp only [List.append_assoc]
    exact .inl <| .cons hname <| .cons (condSuffix_mem_grammar w) <| .cons (Lang.opt_ite "s") <|
      .cons (literal_mem_oneOf " ") <| .cons (reg_mem_grammar _) <| .cons (literal_mem_oneOf ",") <|
      .cons (reg_mem_grammar _) <| .last hop2
  next hclass =>
    rw [if_neg hclass] at hname
    split
    next hcomparison =>
      rw [if_pos hcomparison] at hname
      simp only [List.append_assoc]
      exact .inr <| .inl <| .cons hname <| .cons (condSuffix_mem_grammar w) <| .cons (Lang.opt_ite "p") <|
        .cons (literal_mem_oneOf " ") <| .cons (reg_mem_grammar _) <| .last hop2
    next hcomparison =>
      rw [if_neg hcomparison] at hname
      simp only [List.append_assoc]
      exact .inr <| .inr <| .cons hname <| .cons (condSuffix_mem_grammar w) <| .cons (Lang.opt_ite "s") <|
        .cons (literal_mem_oneOf " ") <| .cons (reg_mem_grammar _) <| .last hop2

theorem textSdt_mem_grammar (p : Params) (w : Word) : Grammar.sdt p (Block.textSdt p w) := by
  have hoffset : Lang.alt Grammar.shreg (.lit p.placeholder)
      (if w.getLsbD 25 then Block.shiftedRegister w else p.placeholder) := by
    split
    · exact .inl (shiftedRegister_mem_grammar w)
    · exact .inr rfl
  unfold Block.textSdt Grammar.sdt
  simp only [List.append_assoc]
  exact .cons (Lang.oneOf_ite (by decide) (by decide)) <| .cons (condSuffix_mem_grammar w) <|
    .cons (Lang.opt_ite "b") <| .cons (literal_mem_oneOf " ") <| .cons (reg_mem_grammar _) <|
    .cons (literal_mem_oneOf ",[") <| .cons (reg_mem_grammar _) <| .cons hoffset <| .last (literal_mem_oneOf "]")

theorem textBdt_mem_grammar (w : Word) : Grammar.bdt (Block.textBdt w) := by
  unfold Block.textBdt Grammar.bdt
  simp only [List.append_assoc]
  exact .cons (Lang.oneOf_ite (by decide) (by decide)) <| .cons (condSuffix_mem_grammar w) <|
    .cons (modeName_mem_grammar _) <| .cons (literal_mem_oneOf " ") <| .cons (reg_mem_grammar _) <|
    .cons (Lang.opt_ite "!") <| .cons (literal_mem_oneOf ",") <| .cons (a := .lit [lbrace]) rfl <|
    .cons (regs_mem_grammar _) <| .cons (a := .lit [rbrace]) rfl <| .last (Lang.opt_ite "^")

theorem textRaw_mem_grammar (p : Params) (w : Word) : Grammar.raw p (textRaw p w) :=
  .cons (a := .lit p.marker) rfl <| .last (hex8_mem_grammar w)

/-- R56: the multiplexer's text is of its family's production. -/
theorem text_mem_grammar (p : Params) (addr w : Word) : Grammar.text p (Block.text p addr w) := by
  unfold Block.text Grammar.text
  cases classify w with
  | branch => exact .inl (textBranch_mem_grammar addr w)
  | multiply => exact .inr (.inl (textMultiply_mem_grammar w))
  | swi => exact .inr (.inr (.inl (textSwi_mem_grammar w)))
  | dataProcessing => exact .inr (.inr (.inr (.inl (textDp_mem_grammar w))))
  | singleTransfer => exact .inr (.inr (.inr (.inr (.inl (textSdt_mem_grammar p w)))))
  | blockTransfer => exact .inr (.inr (.inr (.inr (.inr (.inl (textBdt_mem_grammar w))))))
  | unknown => exact .inr (.inr (.inr (.inr (.inr (.inr (textRaw_mem_grammar p w))))))

theorem line_mem_grammar (p : Params) (addr w : Word) : Grammar.line p (Block.line p addr w) := by
  unfold Block.line Grammar.line
  simp only [List.append_assoc]
  exact .cons (hex8_mem_grammar addr) <| .cons (literal_mem_oneOf " : ") <| .cons (hex8_mem_grammar w) <|
    .cons (literal_mem_oneOf " : ") <| .last (text_mem_grammar p addr w)

/-- What a step puts on the line port is the page's line of the pair on the inputs. -/
theorem step_line (s : State) :
    ∃ t, step s = .next t ∧ t.line = Block.line Config.params s.fetch.addr s.fetch.word := by
  obtain ⟨t, hstep, -, -, houtputs⟩ := stepRefinesTheWholeBlock s
  exact ⟨t, hstep, congrArg Outputs.line houtputs⟩

/-- Settles O45: each part of the page's line is in its production, and a step puts the page's line on the port. -/
theorem everyLineIsInTheGrammar : Obligations.EveryLineIsInTheGrammar := by
  refine ⟨line_mem_grammar, fun s => ?_⟩
  obtain ⟨t, hstep, hline⟩ := step_line s
  exact ⟨t, hstep, hline ▸ line_mem_grammar ..⟩

/-! ## The characters of a language -/

/-- Every character of every text of the language has the property. -/
def Lang.CharsIn (P : Char → Prop) (a : Lang) : Prop := ∀ x, a x → ∀ ch ∈ x, P ch

/-- The characters of 41_condition_and_text.md section 5. -/
def listedChar (ch : Char) : Bool :=
  ch.isLower || ch.isDigit || " :,[]!^.?".toList.contains ch || ch.toNat == 0x7b || ch.toNat == 0x7d

theorem mem_intercalate {α : Type} {a : α} {sep : List α} {ls : List (List α)} (ha : a ∈ List.intercalate sep ls) :
    a ∈ sep ∨ ∃ l ∈ ls, a ∈ l := by
  induction ls with
  | nil => exact absurd ha List.not_mem_nil
  | cons l rest ih =>
    by_cases hrest : rest = []
    · rw [hrest, List.intercalate_singleton] at ha
      exact .inr ⟨l, List.mem_cons_self, ha⟩
    · rw [List.intercalate_cons_of_ne_nil hrest, List.mem_append, List.mem_append] at ha
      obtain (hl | hsep) | htail := ha
      · exact .inr ⟨l, List.mem_cons_self, hl⟩
      · exact .inl hsep
      · exact (ih htail).imp_right fun ⟨m, hm, ham⟩ => ⟨m, List.mem_cons_of_mem l hm, ham⟩

section Chars
variable {P : Char → Prop}

theorem Lang.CharsIn.alt {a b : Lang} (ha : a.CharsIn P) (hb : b.CharsIn P) : (Lang.alt a b).CharsIn P :=
  fun x hx => hx.elim (ha x) (hb x)

theorem Lang.CharsIn.opt {a : Lang} (ha : a.CharsIn P) : (Lang.opt a).CharsIn P := by
  rintro x (rfl | hx)
  · exact nofun
  · exact ha x hx

theorem Lang.CharsIn.lit {t : Text} (ht : ∀ ch ∈ t, P ch) : (Lang.lit t).CharsIn P := by
  rintro x rfl
  exact ht

theorem Lang.CharsIn.cons {a : Lang} {rest : List Lang} (ha : a.CharsIn P) (hrest : (Lang.seq rest).CharsIn P) :
    (Lang.seq (a :: rest)).CharsIn P := by
  rintro x ⟨u, v, rfl, hu, hv⟩ ch hch
  exact (List.mem_append.mp hch).elim (ha u hu ch) (hrest v hv ch)

theorem Lang.CharsIn.last {a : Lang} (ha : a.CharsIn P) : (Lang.seq [a]).CharsIn P :=
  .cons ha (by rintro x rfl; exact nofun)

section Productions
variable (hP : ∀ ch, listedChar ch = true → P ch)
include hP

theorem charsIn_oneOf {ts : List String} (hts : (ts.all fun t => t.toList.all listedChar) = true) :
    (Lang.oneOf ts).CharsIn P := by
  rintro x ⟨t, ht, rfl⟩ ch hch
  exact hP ch (List.all_eq_true.mp (List.all_eq_true.mp hts t ht) ch hch)

theorem charsIn_lit {t : Text} (ht : t.all listedChar = true) : (Lang.lit t).CharsIn P :=
  .lit fun ch hch => hP ch (List.all_eq_true.mp ht ch hch)

theorem charsIn_hex8 : Grammar.hex8.CharsIn P := by
  have hdigits : "0123456789abcdef".toList.all listedChar = true := rfl
  exact fun x hx ch hch => hP ch (List.all_eq_true.mp hdigits ch (hx.2 ch hch))

theorem charsIn_dec : Grammar.dec.CharsIn P := by
  have hdigits : "0123456789".toList.all listedChar = true := rfl
  rintro x (rfl | ⟨d, ds, rfl, hd, hds⟩) ch hch
  · exact hP ch (List.all_eq_true.mp hdigits ch (List.mem_cons.mpr (.inl (List.mem_singleton.mp hch))))
  · rcases List.mem_cons.mp hch with rfl | hch
    · exact hP ch (List.all_eq_true.mp hdigits ch (List.mem_cons_of_mem _ hd))
    · exact hP ch (List.all_eq_true.mp hdigits ch (hds ch hch))

theorem charsIn_reg : Grammar.reg.CharsIn P := charsIn_oneOf hP rfl

theorem charsIn_cond : Grammar.cond.CharsIn P := charsIn_oneOf hP rfl

theorem charsIn_shreg : Grammar.shreg.CharsIn P :=
  .cons (charsIn_oneOf hP rfl) <| .cons (charsIn_reg hP) <| .last <| .opt <|
    .cons (charsIn_oneOf hP rfl) <| .cons (charsIn_oneOf hP rfl) <|
    .cons (charsIn_oneOf hP rfl) <| .last <| .alt (charsIn_reg hP) (charsIn_dec hP)

theorem charsIn_op2 : Grammar.op2.CharsIn P :=
  .alt (.cons (charsIn_oneOf hP rfl) <| .last (charsIn_dec hP)) (charsIn_shreg hP)

theorem charsIn_regs : Grammar.regs.CharsIn P := by
  have hcomma : ∀ ch ∈ ",".toList, P ch := charsIn_oneOf hP (ts := [","]) rfl _ (literal_mem_oneOf ",")
  rintro x ⟨names, hnames, rfl⟩ ch hch
  obtain hsep | ⟨name, hname, hch⟩ := mem_intercalate hch
  · exact hcomma ch hsep
  · exact charsIn_reg hP name (hnames name hname) ch hch

theorem charsIn_branch : Grammar.branch.CharsIn P :=
  .cons (charsIn_oneOf hP rfl) <| .cons (charsIn_cond hP) <| .cons (charsIn_oneOf hP rfl) <|
    .last (charsIn_hex8 hP)

theorem charsIn_multiply : Grammar.multiply.CharsIn P := by
  have hcomma : (Lang.oneOf [","]).CharsIn P := charsIn_oneOf hP rfl
  have hletter : (Lang.opt (.oneOf ["s"])).CharsIn P := .opt (charsIn_oneOf hP rfl)
  exact .alt
    (.cons (charsIn_oneOf hP rfl) <| .cons (charsIn_cond hP) <| .cons hletter <|
      .cons (charsIn_oneOf hP rfl) <| .cons (charsIn_reg hP) <| .cons hcomma <| .cons (charsIn_reg hP) <|
      .cons hcomma <| .last (charsIn_reg hP))
    (.cons (charsIn_oneOf hP rfl) <| .cons (charsIn_cond hP) <| .cons hletter <|
      .cons (charsIn_oneOf hP rfl) <| .cons (charsIn_reg hP) <| .cons hcomma <| .cons (charsIn_reg hP) <|
      .cons hcomma <| .cons (charsIn_reg hP) <| .cons hcomma <| .last (charsIn_reg hP))

theorem charsIn_swi : Grammar.swi.CharsIn P :=
  .cons (charsIn_oneOf hP rfl) <| .cons (charsIn_cond hP) <| .cons (charsIn_oneOf hP rfl) <|
    .last (charsIn_dec hP)

theorem charsIn_dp : Grammar.dp.CharsIn P := by
  have hspace : (Lang.oneOf [" "]).CharsIn P := charsIn_oneOf hP rfl
  have hletter : (Lang.opt (.oneOf ["s"])).CharsIn P := .opt (charsIn_oneOf hP rfl)
  exact .alt
    (.cons (charsIn_oneOf hP rfl) <| .cons (charsIn_cond hP) <| .cons hletter <| .cons hspace <|
      .cons (charsIn_reg hP) <| .cons (charsIn_oneOf hP rfl) <| .cons (charsIn_reg hP) <| .last (charsIn_op2 hP))
    (.alt
      (.cons (charsIn_oneOf hP rfl) <| .cons (charsIn_cond hP) <| .cons (.opt (charsIn_oneOf hP rfl)) <|
        .cons hspace <| .cons (charsIn_reg hP) <| .last (charsIn_op2 hP))
      (.cons (charsIn_oneOf hP rfl) <| .cons (charsIn_cond hP) <| .cons hletter <| .cons hspace <|
        .cons (charsIn_reg hP) <| .last (charsIn_op2 hP)))

theorem charsIn_sdt {p : Params} (hplaceholder : ∀ ch ∈ p.placeholder, P ch) : (Grammar.sdt p).CharsIn P :=
  .cons (charsIn_oneOf hP rfl) <| .cons (charsIn_cond hP) <| .cons (.opt (charsIn_oneOf hP rfl)) <|
    .cons (charsIn_oneOf hP rfl) <| .cons (charsIn_reg hP) <| .cons (charsIn_oneOf hP rfl) <|
    .cons (charsIn_reg hP) <| .cons (.alt (charsIn_shreg hP) (.lit hplaceholder)) <|
    .last (charsIn_oneOf hP rfl)

theorem charsIn_bdt : Grammar.bdt.CharsIn P :=
  .cons (charsIn_oneOf hP rfl) <| .cons (charsIn_cond hP) <| .cons (charsIn_oneOf hP rfl) <|
    .cons (charsIn_oneOf hP rfl) <| .cons (charsIn_reg hP) <| .cons (.opt (charsIn_oneOf hP rfl)) <|
    .cons (charsIn_oneOf hP rfl) <| .cons (charsIn_lit hP rfl) <| .cons (charsIn_regs hP) <|
    .cons (charsIn_lit hP rfl) <| .last (.opt (charsIn_oneOf hP rfl))

theorem charsIn_raw {p : Params} (hmarker : ∀ ch ∈ p.marker, P ch) : (Grammar.raw p).CharsIn P :=
  .cons (.lit hmarker) <| .last (charsIn_hex8 hP)

theorem charsIn_text {p : Params} (hplaceholder : ∀ ch ∈ p.placeholder, P ch) (hmarker : ∀ ch ∈ p.marker, P ch) :
    (Grammar.text p).CharsIn P := by
  rintro x (hx | hx | hx | hx | hx | hx | hx)
  exacts [charsIn_branch hP x hx, charsIn_multiply hP x hx, charsIn_swi hP x hx, charsIn_dp hP x hx,
    charsIn_sdt hP hplaceholder x hx, charsIn_bdt hP x hx, charsIn_raw hP hmarker x hx]

theorem charsIn_line {p : Params} (hplaceholder : ∀ ch ∈ p.placeholder, P ch) (hmarker : ∀ ch ∈ p.marker, P ch) :
    (Grammar.line p).CharsIn P :=
  .cons (charsIn_hex8 hP) <| .cons (charsIn_oneOf hP rfl) <| .cons (charsIn_hex8 hP) <|
    .cons (charsIn_oneOf hP rfl) <| .last (charsIn_text hP hplaceholder hmarker)

end Productions
end Chars

theorem asciiText_toNat_lt (codes : List (Fin 128)) : ∀ ch ∈ asciiText codes, ch.toNat < 128 := by
  have hcode : ∀ k : Fin 128, (Char.ofNat k.val).toNat < 128 := by decide
  intro ch hch
  obtain ⟨k, -, rfl⟩ := List.mem_map.mp hch
  exact hcode k

theorem listedChar_iff (ch : Char) : listedChar ch = true ↔ ch.isLower = true ∨ ch.isDigit = true ∨
    ch ∈ " :,[]!^.?".toList ∨ ch.toNat = 0x7b ∨ ch.toNat = 0x7d := by
  simp [listedChar, or_assoc]

theorem toNat_lt_of_listedChar {ch : Char} (hch : listedChar ch = true) : ch.toNat < 128 := by
  have hbelow {last : Char} (hle : ch.val ≤ last.val) (hlast : last.toNat < 128) : ch.toNat < 128 :=
    Nat.lt_of_le_of_lt (UInt32.le_iff_toNat_le.mp hle) hlast
  have hpunctuation : (" :,[]!^.?".toList.all fun ch => ch.toNat < 128) = true := rfl
  rcases (listedChar_iff ch).mp hch with hlower | hdigit | hmem | hbrace | hbrace
  · exact hbelow (last := 'z') (of_decide_eq_true (Bool.and_eq_true_iff.mp hlower).2) (by decide)
  · exact hbelow (last := '9') (of_decide_eq_true (Bool.and_eq_true_iff.mp hdigit).2) (by decide)
  · exact of_decide_eq_true (List.all_eq_true.mp hpunctuation ch hmem)
  · omega
  · omega

/-- Settles O46: a line is in the grammar, whose characters are the listed ones and those of the two strings. -/
theorem lineCharacters : Obligations.LineCharacters := by
  refine ⟨fun s => ?_, fun addr w => ?_⟩
  · obtain ⟨t, hstep, hline⟩ := step_line s
    refine ⟨t, hstep, charsIn_line (p := Config.params) (fun _ => toNat_lt_of_listedChar) (asciiText_toNat_lt _)
      (asciiText_toNat_lt _) t.line ?_⟩
    exact hline ▸ line_mem_grammar ..
  · have hplaceholder : Config.vectorParams.placeholder.all listedChar = true := rfl
    have hmarker : Config.vectorParams.marker.all listedChar = true := rfl
    have hchars := charsIn_line (P := fun ch => listedChar ch = true) (fun _ h => h) (List.all_eq_true.mp hplaceholder)
      (List.all_eq_true.mp hmarker) _ (line_mem_grammar Config.vectorParams addr w)
    exact fun ch hch => (listedChar_iff ch).mp (hchars ch hch)

end Sys2Proof.Machine

/-! PROOFS. The length of the line (49_fallback_and_line.md section 2, 10_state.md section 7; O44). -/

namespace Sys2Proof.Machine

/-! ## The literals and the text primitives -/

theorem literal_length : " ".toList.length = 1 ∧ ",".toList.length = 1 ∧ ",[".toList.length = 2 ∧
    "]".toList.length = 1 ∧ "swi".toList.length = 3 := by
  decide

theorem reg_length (n : Reg) : 2 ≤ (reg n).length ∧ (reg n).length ≤ 3 := by
  revert n
  decide

theorem condSuffix_length_le (w : Word) : (Block.condSuffix w).length ≤ 2 := by
  have htable : ∀ x : BitVec 4, (entry COND x.toNat).length ≤ 2 := by decide
  exact htable _

theorem dpName_length (x : BitVec 4) : (entry DPNAME x.toNat).length = 3 := by
  revert x
  decide

theorem shiftName_length (x : BitVec 2) : (entry SHIFT x.toNat).length = 3 := by
  revert x
  decide

theorem modeName_length (x : BitVec 2) : (entry MODE x.toNat).length = 2 := by
  revert x
  decide

theorem dec_length_pos (v : Word) : 0 < (dec v).length := by
  obtain ⟨ch, hlast, -⟩ := endsVisibly_dec v
  exact List.length_pos_of_mem (List.mem_of_getLast? hlast)

/-- A letter that is printed or not. -/
theorem letter_length_le (c : Prop) [Decidable c] (t : String) :
    (if c then t else "").toList.length ≤ t.toList.length := by
  split
  · exact Nat.le_refl _
  · exact Nat.zero_le _

/-- A name chosen between two of one length. -/
theorem name_length (c : Prop) [Decidable c] {t u : String} {n : Nat} (ht : t.toList.length = n)
    (hu : u.toList.length = n) : (if c then t else u).toList.length = n := by
  split <;> assumption

/-- R113: the amount is a register name or a number below 16. -/
theorem shiftAmount_length_le (w : Word) :
    (if w.getLsbD 4 then reg (w.extractLsb' 8 4) else dec ((w.extractLsb' 8 4).zeroExtend 32)).length ≤ 3 := by
  split
  · exact (reg_length _).2
  · refine (dec_length_le (k := 2) (by decide) ?_).trans (by decide)
    rw [BitVec.toNat_setWidth]
    omega

theorem shiftedRegister_length (w : Word) :
    3 ≤ (Block.shiftedRegister w).length ∧ (Block.shiftedRegister w).length ≤ 12 := by
  have hreg := reg_length (w.extractLsb' 0 4)
  have hamount := shiftAmount_length_le w
  unfold Block.shiftedRegister
  split
  · simp only [List.length_append, literal_length, shiftName_length]
    omega
  · simp only [List.length_append, literal_length, List.length_nil]
    omega

/-! ## The register list: what all sixteen registers would take, of which the first has no comma -/

/-- The length of the names of registers `i` to `i + n - 1`, each with a comma. -/
def namesLength (n i : Nat) : Nat := ((List.range' i n).map fun k => 1 + (reg (BitVec.ofNat 4 k)).length).sum

theorem listFrom_length_le (list : BitVec 16) (n i : Nat) {comma : Text} (hcomma : comma.length ≤ 1) :
    (Block.listFrom list n i comma).length ≤ comma.length + namesLength n i - 1 := by
  induction n generalizing i comma with
  | zero => exact Nat.zero_le _
  | succ n ih =>
    have hsucc : namesLength (n + 1) i = 1 + (reg (BitVec.ofNat 4 i)).length + namesLength n (i + 1) := by
      rw [namesLength, List.range'_succ, List.map_cons, List.sum_cons, namesLength]
    have hnext := ih (i + 1) hcomma
    have hnextComma := ih (i + 1) (comma := ",".toList) (by decide)
    rw [literal_length.2.1] at hnextComma
    rw [Block.listFrom, hsucc]
    split
    · simp only [List.length_append]
      omega
    · omega

theorem listFrom_length_le_53 (list : BitVec 16) : (Block.listFrom list 16 0 []).length ≤ 53 :=
  listFrom_length_le list 16 0 (Nat.zero_le _)

/-! ## The texts of the families: between five characters and the bound of R135 -/

theorem textBranch_length (addr w : Word) :
    5 ≤ (Block.textBranch addr w).length ∧ (Block.textBranch addr w).length ≤ 13 := by
  have hcond := condSuffix_length_le w
  have hname : (if w.getLsbD 24 then "bl" else "b").toList.length ≤ 2 := by split <;> decide
  simp only [Block.textBranch, List.length_append, literal_length, hex8_length]
  omega

theorem textMultiply_length (w : Word) : 5 ≤ (Block.textMultiply w).length ∧ (Block.textMultiply w).length ≤ 22 := by
  have hcond := condSuffix_length_le w
  have hname := name_length (w.getLsbD 21 = true) (t := "mla") (u := "mul") (n := 3) rfl rfl
  have hletter : _ ≤ 1 := letter_length_le (w.getLsbD 20 = true) "s"
  have hrn := reg_length (w.extractLsb' 12 4)
  have hlast : (if w.getLsbD 21 then ",".toList ++ reg (w.extractLsb' 12 4) else []).length ≤ 4 := by
    split
    · simp only [List.length_append, literal_length]
      omega
    · exact Nat.zero_le _
  have hrd := reg_length (w.extractLsb' 16 4)
  have hrm := reg_length (w.extractLsb' 0 4)
  have hrs := reg_length (w.extractLsb' 8 4)
  simp only [Block.textMultiply, List.length_append, literal_length]
  omega

theorem textSwi_length (w : Word) : 5 ≤ (Block.textSwi w).length ∧ (Block.textSwi w).length ≤ 14 := by
  have hcond := condSuffix_length_le w
  have hdec : (dec ((w.extractLsb' 0 24).zeroExtend 32)).length ≤ 8 := by
    refine dec_length_le (by decide) ?_
    rw [BitVec.toNat_setWidth]
    omega
  have hpos := dec_length_pos ((w.extractLsb' 0 24).zeroExtend 32)
  simp only [Block.textSwi, List.length_append, literal_length]
  omega

theorem textDp_length (w : Word) : 5 ≤ (Block.textDp w).length ∧ (Block.textDp w).length ≤ 26 := by
  have hcond := condSuffix_length_le w
  have hs : _ ≤ 1 := letter_length_le (w.getLsbD 20 = true) "s"
  have hp : _ ≤ 1 := letter_length_le (w.extractLsb' 12 4 = 15) "p"
  have hrn := reg_length (w.extractLsb' 16 4)
  have hrd := reg_length (w.extractLsb' 12 4)
  have hop2 :
      (if w.getLsbD 25 then ",".toList ++ dec (Block.immediate w) else Block.shiftedRegister w).length ≤ 12 := by
    split
    · have hdec := dec_length_le (v := Block.immediate w) (k := 10) (by decide) (by omega)
      simp only [List.length_append, literal_length]
      omega
    · exact (shiftedRegister_length w).2
  unfold Block.textDp
  dsimp only
  rw [List.length_append]
  split
  · simp only [List.length_append, literal_length, dpName_length]
    omega
  · split <;>
    · simp only [List.length_append, literal_length, dpName_length]
      omega

theorem textSdt_length (p : Params) (w : Word) : 5 ≤ (Block.textSdt p w).length ∧
    (Block.textSdt p w).length ≤ if w.getLsbD 25 then 28 else 16 + p.placeholder.length := by
  have hcond := condSuffix_length_le w
  have hname := name_length (w.getLsbD 20 = true) (t := "ldr") (u := "str") (n := 3) rfl rfl
  have hletter : _ ≤ 1 := letter_length_le (w.getLsbD 22 = true) "b"
  have hrd := reg_length (w.extractLsb' 12 4)
  have hrn := reg_length (w.extractLsb' 16 4)
  have hregOffset := shiftedRegister_length w
  have hoffset : 16 + (if w.getLsbD 25 then Block.shiftedRegister w else p.placeholder).length ≤
      if w.getLsbD 25 then 28 else 16 + p.placeholder.length := by
    split <;> omega
  simp only [Block.textSdt, List.length_append, literal_length]
  omega

theorem textBdt_length (w : Word) : 5 ≤ (Block.textBdt w).length ∧ (Block.textBdt w).length ≤ 69 := by
  have hcond := condSuffix_length_le w
  have hname := name_length (w.getLsbD 20 = true) (t := "ldm") (u := "stm") (n := 3) rfl rfl
  have hwriteback : _ ≤ 1 := letter_length_le (w.getLsbD 21 = true) "!"
  have huserBank : _ ≤ 1 := letter_length_le (w.getLsbD 22 = true) "^"
  have hrn := reg_length (w.extractLsb' 16 4)
  have hlist := listFrom_length_le_53 (w.extractLsb' 0 16)
  simp only [Block.textBdt, List.length_append, literal_length, modeName_length, List.length_singleton]
  omega

theorem textRaw_length (p : Params) (w : Word) : (textRaw p w).length = p.marker.length + 8 := List.length_append

theorem text_length (p : Params) (addr w : Word) :
    5 ≤ (Block.text p addr w).length ∧ (Block.text p addr w).length ≤ textBound p w := by
  unfold Block.text textBound
  cases classify w with
  | branch => exact textBranch_length addr w
  | multiply => exact textMultiply_length w
  | swi => exact textSwi_length w
  | dataProcessing => exact textDp_length w
  | singleTransfer => exact textSdt_length p w
  | blockTransfer => exact textBdt_length w
  | unknown =>
    dsimp only
    rw [textRaw_length]
    omega

theorem textBound_le (p : Params) (w : Word) :
    textBound p w ≤ max (max 69 (16 + p.placeholder.length)) (8 + p.marker.length) := by
  unfold textBound
  cases classify w with
  | singleTransfer =>
    dsimp only
    split <;> omega
  | branch | multiply | swi | dataProcessing | blockTransfer | unknown =>
    dsimp only
    omega

/-! ## The line -/

theorem line_length (p : Params) (addr w : Word) : (Block.line p addr w).length = 22 + (Block.text p addr w).length :=
  assembleLine_length ..

/-- The longest immediate-form transfer around the placeholder. -/
theorem text_length_immediateTransfer (p : Params) (addr : Word) :
    (Block.text p addr 0xf57ff000).length = textBound p 0xf57ff000 := by
  have htext : Block.text p addr 0xf57ff000 = "ldrnvb r15,[r15".toList ++ p.placeholder ++ "]".toList := rfl
  have hfront : "ldrnvb r15,[r15".toList.length = 15 := rfl
  have hbound : textBound p 0xf57ff000 = 16 + p.placeholder.length := rfl
  rw [htext, hbound, List.length_append, List.length_append, hfront, literal_length.2.2.2.1]
  omega

theorem text_length_rawWord (p : Params) (addr : Word) :
    (Block.text p addr 0xfc000000).length = textBound p 0xfc000000 :=
  (textRaw_length p 0xfc000000).trans (Nat.add_comm ..)

/-- Settles O44: every part of a text has a bounded length; the eight words and `swi 0` are evaluated. -/
theorem lineLengthBounds : Obligations.LineLengthBounds := by
  refine ⟨fun p addr w => ?_, fun p addr w hw => ?_, fun p addr => rfl⟩
  · have htext := text_length p addr w
    have hbound := textBound_le p w
    rw [line_length]
    omega
  · fin_cases hw
    exacts [rfl, rfl, rfl, rfl, rfl, text_length_immediateTransfer p addr, rfl, text_length_rawWord p addr]

end Sys2Proof.Machine
